-- ==== Sys2Proof/Word.lean ====
section
/-! DEFINITION. The word types of the block and their plainest arithmetic (00_scope.md R7, R9). -/

namespace Sys2Proof

/-- One entry of a store: 8 bits (00_scope.md R7, BYTE). -/
abbrev Byte := BitVec 8

/-- One bus word, command word or MODEXP operand: 32 bits (R7, BUS_DATA and MX_WIDTH). -/
abbrev Word := BitVec 32

/-- A byte offset from BASE: 17 bits (R7, BUS_ADDR). -/
abbrev Offset := BitVec 17

end Sys2Proof
end

