-- ==== Sys2Proof/Syntax.lean ====
section
/-! DEFINITION. The commands of the block, one constructor per row of spec/opcode_table.json (30_encoding.md R92). -/

namespace Sys2Proof

/-- The four commands of "CORE command set, version 1" (00_scope.md R3; 30_encoding.md R92).
No command has an operand: every operand is a fixed register or store (R91). -/
inductive Instr
  /-- `cipher(data, key)`: 40_rc4.md R110. -/
  | rc4Cipher
  /-- `schedule(key)`: 40_rc4.md R111. -/
  | rc4Schedule
  /-- `generate(S, data)`: 40_rc4.md R112. -/
  | rc4Generate
  /-- `modexp(base, exponent, modulus)`: 41_modexp.md R140. -/
  | modexp
  deriving DecidableEq, Repr

end Sys2Proof
end

