-- ==== Sys2Proof/WellFormed.lean ====
section
/-! DEFINITION. Which terms and which command words are well formed (30_encoding.md R90 to R94). -/

namespace Sys2Proof

/-- A command has no operand field, so every term of `Instr` is well formed (30_encoding.md R91). -/
def Instr.wellFormed : Instr → Bool
  | .rc4Cipher => true
  | .rc4Schedule => true
  | .rc4Generate => true
  | .modexp => true

/-- The field OP of a command word, bits 7:0 (30_encoding.md R90). -/
def opField (v : Word) : Byte := v.extractLsb' 0 8

/-- The field RSV of a command word, bits 31:8 (30_encoding.md R90). -/
def rsvField (v : Word) : BitVec 24 := v.extractLsb' 8 24

/-- The reserved field is 0, as R90 demands. -/
def rsvClear (v : Word) : Bool := rsvField v == 0#24

/-- OP is one of the four defined operations (30_encoding.md R92, R94). -/
def opDefined (v : Word) : Bool :=
  opField v == 0x01#8 || opField v == 0x02#8 || opField v == 0x03#8 || opField v == 0x10#8

/-- A legal command word: what R94 does not call illegal. -/
def wordWellFormed (v : Word) : Bool := rsvClear v && opDefined v

end Sys2Proof
end

