-- ==== Sys2Proof/Decode.lean ====
section
/-! DEFINITION. Decoding a command word, total on all 2^32 words, and the encoder (30_encoding.md R90 to R95). -/

namespace Sys2Proof

/-- Why a word is BAD (30_encoding.md R94; the two grounds of illegality). Naming the ground is the model's own:
R93 answers plain BAD (log entry 16). -/
inductive BadCommand
  /-- RSV (bits 31:8) is not 0. -/
  | reservedNonzero
  /-- RSV is 0 and OP is none of 0x01, 0x02, 0x03, 0x10. -/
  | undefinedOp (op : Byte)
  deriving DecidableEq, Repr

/-- What the decoder says of a word. -/
inductive Decoded
  | command (i : Instr)
  | bad (why : BadCommand)
  deriving DecidableEq, Repr

/-- 30_encoding.md R93: RSV is looked at first, then OP. A word the table does not list is BAD in this version (log
entry 16). -/
def decode (v : Word) : Decoded :=
  if rsvField v != 0#24 then .bad .reservedNonzero
  else if opField v == 0x01#8 then .command .rc4Cipher
  else if opField v == 0x02#8 then .command .rc4Schedule
  else if opField v == 0x03#8 then .command .rc4Generate
  else if opField v == 0x10#8 then .command .modexp
  else .bad (.undefinedOp (opField v))

/-- The opcode of a command, the field OP of its word (30_encoding.md R92). -/
def opcode : Instr → Byte
  | .rc4Cipher => 0x01#8
  | .rc4Schedule => 0x02#8
  | .rc4Generate => 0x03#8
  | .modexp => 0x10#8

/-- The word of a command: RSV = 0 in the more significant bits, OP below it (30_encoding.md R90, R92). -/
def encode (i : Instr) : Word := 0#24 ++ opcode i

/-- The command the decoder reads from a row of spec/opcode_table.json: `w` holds the row's `nbits` bits, bit 0
least significant, and every bit above them is 0. A command is one 32-bit word written in one bus access
(30_encoding.md R95), so a value that does not fit 32 bits is no command word. -/
def decodeTableWord (nbits w : Nat) : Option Instr :=
  if w < 2 ^ 32 ∧ w < 2 ^ nbits then
    match decode (BitVec.ofNat 32 w) with
    | .command i => some i
    | .bad _ => none
  else none

end Sys2Proof
end

