-- ==== Sys2Proof/Config.lean ====
section
/-! DEFINITION. The open parameters of the hardware (00_scope.md R8) and the free values: what the spec leaves
unspecified (93_implementation_defined.md U7, U8). -/

namespace Sys2Proof

/-- The three byte stores (10_state.md R36, R37, R38). -/
inductive Store
  | key
  | perm
  | data
  deriving DecidableEq, Repr

/-- The open parameters of 00_scope.md R8, fixed for one machine.
`dbufWords` is DBUF_SIZE/4 - 1, so that every value of the type is a legal DBUF_SIZE: a multiple of 4 in
4 .. 65536. `base` and `lat` are BASE and LAT, which no rule of the block reads (U10, U11). -/
structure Config where
  dbufWords : Fin 16384
  base : Nat
  lat : Nat
  deriving DecidableEq, Repr

/-- DBUF_SIZE, the size of the data store in bytes (00_scope.md R8). -/
def Config.dbufSize (g : Config) : Nat := 4 * (g.dbufWords.val + 1)

/-- FREE VALUE (70_reset_and_hazards.md R191, U7; log entry 3): the byte that index `x` of KEY or DATA holds
after the reset numbered `epoch`, until it is written. -/
opaque Config.resetByte (epoch : Nat) (st : Store) (x : Nat) : Byte

/-- FREE VALUE (70_reset_and_hazards.md R201, U8; log entry 4): what the unspecified read numbered `n`
returns. -/
opaque Config.busyRead (n : Nat) : Word

end Sys2Proof
end

