-- ==== Sys2Proof/Machine/AddressMap.lean ====
section
/-! DEFINITION. The host-visible register map and how an offset is decoded (10_state.md R22; 20_memory.md R61 to R67). -/

namespace Sys2Proof.Machine

/-- What a host access reaches (10_state.md R22). The argument of a window is the word index w of 20_memory.md R64. -/
inductive Loc
  | misaligned
  | cmd
  | status
  | ctrl
  | keyLen
  | dataLen
  | mxBase
  | mxExp
  | mxMod
  | mxResult
  | cfg
  | key (w : Nat)
  | perm (w : Nat)
  | data (w : Nat)
  | unmapped
  deriving DecidableEq, Repr

/-- The offset names of 10_state.md R22 and 30_encoding.md R100. -/
def cmdOff : Offset := 0x00000#17
def statusOff : Offset := 0x00004#17
def ctrlOff : Offset := 0x00008#17
def keyLenOff : Offset := 0x0000C#17
def dataLenOff : Offset := 0x00010#17
def mxBaseOff : Offset := 0x00014#17
def mxExpOff : Offset := 0x00018#17
def mxModOff : Offset := 0x0001C#17
def mxResultOff : Offset := 0x00020#17
def cfgOff : Offset := 0x00024#17

/-- The window bases WB of 20_memory.md R64. -/
def keyBase : Nat := 0x00100
def permBase : Nat := 0x00200
def dataBase : Nat := 0x10000

/-- The offset of word `w` of the KEY, S or DATA window (20_memory.md R64). -/
def keyOff (w : Nat) : Offset := BitVec.ofNat 17 (keyBase + 4 * w)
def permOff (w : Nat) : Offset := BitVec.ofNat 17 (permBase + 4 * w)
def dataOff (w : Nat) : Offset := BitVec.ofNat 17 (dataBase + 4 * w)

/-- Decode an offset: alignment is checked before the address (20_memory.md R63), then the map of 10_state.md R22;
what the map does not list is unmapped (20_memory.md R67). `size` is DBUF_SIZE. -/
def locateNat (size a : Nat) : Loc :=
  if a % 4 ≠ 0 then .misaligned
  else if a = 0x00000 then .cmd
  else if a = 0x00004 then .status
  else if a = 0x00008 then .ctrl
  else if a = 0x0000C then .keyLen
  else if a = 0x00010 then .dataLen
  else if a = 0x00014 then .mxBase
  else if a = 0x00018 then .mxExp
  else if a = 0x0001C then .mxMod
  else if a = 0x00020 then .mxResult
  else if a = 0x00024 then .cfg
  else if keyBase ≤ a ∧ a ≤ 0x001FC then .key ((a - keyBase) / 4)
  else if permBase ≤ a ∧ a ≤ 0x002FC then .perm ((a - permBase) / 4)
  else if dataBase ≤ a ∧ a < dataBase + size then .data ((a - dataBase) / 4)
  else .unmapped

/-- Decode the port's 17-bit offset. -/
def locate (size : Nat) (off : Offset) : Loc := locateNat size off.toNat

/-- The bus address of an offset, for the platform's BASE (00_scope.md R8; 20_memory.md R73, D4). -/
def busAddress (g : Config) (off : Offset) : Nat := g.base + off.toNat

/-- The offset the platform presents at the port for a bus address, if the address lies in the block. -/
def portOffset (g : Config) (a : Nat) : Option Offset :=
  if g.base ≤ a ∧ a < g.base + 2 ^ 17 then some (BitVec.ofNat 17 (a - g.base)) else none

end Sys2Proof.Machine
end

