-- ==== Sys2Proof/Machine/Event.lean ====
section
/-! DEFINITION. What happens at the block's ports: host accesses, reset cycles, the engine's turn, and the response to
an access (00_scope.md R12, R13; 20_memory.md R60). -/

namespace Sys2Proof.Machine

/-- One host bus access (00_scope.md R12; 30_encoding.md R96): a transaction, not an encoded command. -/
inductive Access
  /-- `BusRead(off)`: we = 0. -/
  | read (off : Offset)
  /-- `BusWrite(off, v)`: we = 1. -/
  | write (off : Offset) (v : Word)
  deriving DecidableEq, Repr

/-- What happens next at the block (00_scope.md R13): a host access, the engine's turn, or a cycle with
rst_n low, in which a host access may be presented and is ignored (70_reset_and_hazards.md R190, R192). -/
inductive Event
  | access (a : Access)
  | engine
  | reset (presented : Option Access)
  deriving DecidableEq, Repr

/-- The response to a host access (00_scope.md R12; 20_memory.md R60): `rdata` for a read, and `resp_err`,
which is true for the response ERR. -/
inductive BusResponse
  | read (rdata : Word) (respErr : Bool)
  | write (respErr : Bool)
  deriving DecidableEq, Repr

end Sys2Proof.Machine
end

