-- ==== Sys2Proof/Machine/Memory.lean ====
section
/-! DEFINITION. A byte store as a list of (index, byte) cells in one canonical form: indices strictly rising, and
no cell that equals what an unlisted index reads as, where that is known (10_state.md R36 to R38, R44). -/

namespace Sys2Proof.Machine

/-- A store's listed cells. -/
abbrev Memory := List Host.Cell

/-- What an unlisted index holds, where the spec fixes it: S is the identity (10_state.md R37, R44); KEY and DATA
are unspecified (R44, 70_reset_and_hazards.md R191). -/
def unlistedKnown : Store → Nat → Option Byte
  | .perm, x => some (BitVec.ofNat 8 x)
  | .key, _ => none
  | .data, _ => none

/-- What an unlisted index reads as: the fixed byte where there is one, else the draw of the last reset. -/
def unlisted (epoch : Nat) (st : Store) (x : Nat) : Byte :=
  match unlistedKnown st x with
  | some v => v
  | none => Config.resetByte epoch st x

/-- The byte listed at an index. -/
def Memory.lookup : Memory → Nat → Option Byte
  | [], _ => none
  | (a, v) :: rest, x => if a = x then some v else Memory.lookup rest x

/-- The cell for index `x` with value `v`, before the cells above it; left out where an unlisted index would read
as `v` anyway. -/
def Memory.put (st : Store) (x : Nat) (v : Byte) (rest : Memory) : Memory :=
  if unlistedKnown st x = some v then rest else (x, v) :: rest

/-- Write one byte, keeping the canonical form. -/
def Memory.write (st : Store) (x : Nat) (v : Byte) : Memory → Memory
  | [] => Memory.put st x v []
  | (a, w) :: rest =>
    if x < a then Memory.put st x v ((a, w) :: rest)
    else if x = a then Memory.put st x v rest
    else (a, w) :: Memory.write st x v rest

/-- Read one byte. -/
def Memory.read (epoch : Nat) (st : Store) (m : Memory) (x : Nat) : Byte :=
  match m.lookup x with
  | some v => v
  | none => unlisted epoch st x

/-- Every cell's index is at least `lo`, the indices rise strictly, all are below `hi`, and no cell holds what an
unlisted index is known to hold. -/
def Memory.wfFrom (st : Store) (hi : Nat) : Nat → Memory → Bool
  | _, [] => true
  | lo, (a, v) :: rest =>
    decide (lo ≤ a) && decide (a < hi) && decide (unlistedKnown st a ≠ some v) && Memory.wfFrom st hi (a + 1) rest

/-- The canonical form of a store of `hi` bytes. -/
def Memory.wf (st : Store) (hi : Nat) (m : Memory) : Bool := Memory.wfFrom st hi 0 m

end Sys2Proof.Machine
end

