-- ==== Sys2Proof/Machine/Params.lean ====
section
/-! DEFINITION. The values the model picks for the open parameters in `State.reset` (log entry 5). -/

namespace Sys2Proof.Machine

/-- DESIGN CHOICE (log entry 5): DBUF_SIZE = 64, the size 95_test_vectors.md uses; BASE = 0; LAT = 1, the
reference design point of 70_reset_and_hazards.md R206. Claims quantify over every `Config`. -/
def defaultConfig : Config := { dbufWords := 15, base := 0, lat := 1 }

end Sys2Proof.Machine
end

