-- ==== Sys2Proof/Machine/State.lean ====
section
/-! DEFINITION. The state of the block, as plain data, with its reset value (10_state.md R20 to R44), and the ways a
step can stop. -/

namespace Sys2Proof.Machine

/-- e.phase, what the sequencer is doing (10_state.md R40, R41); its 2-bit encoding is not host-visible. -/
inductive Phase
  | idle
  | ksa
  | prga
  | mx
  deriving DecidableEq, Repr

/-- Why a step stops. The block has no trap (60_exceptions.md R164) and no engine step can fail (40_rc4.md R115,
R118; 41_modexp.md R142): each fault below names an engine position of which the spec says that it never arises,
and a step from such a position has no rule (log entry 7). -/
inductive Fault
  /-- Raised by a KSA step with e.c > 255 or e.kidx > 255, against R115's "then e.c <= 255 always holds" and
  R113's "e.kidx <= 255 whenever KEY is indexed". Safe: the machine stops. -/
  | ksaPosition
  /-- Raised by a PRGA step with e.k >= DATALEN or e.k >= DBUF_SIZE, against R118's "then e.k < DATALEN always
  holds" and R116. Safe: the machine stops. -/
  | prgaPosition
  /-- Raised by an MX step with e.e = 0 or e.m = 0, against R142's "then e.e != 0 always holds" and "e.m >= 1".
  Safe: the machine stops. -/
  | mxPosition
  deriving DecidableEq, Repr

/-- Why a command has no meaning here. -/
inductive Refusal
  /-- Raised by an arm of `exec` whose command has no meaning yet; no arm of this model raises it. Safe: the
  machine stops. -/
  | notModelled (mnemonic : String)
  deriving DecidableEq, Repr

/-- All the state of the block, under the spec's names (INVENTORY.md, State). BUSY and irq are functions of it
(10_state.md R25; 60_exceptions.md R165). -/
structure State where
  /-- DBUF_SIZE, BASE and LAT (00_scope.md R8): fixed for the machine; no step changes them. -/
  cfg : Config
  /-- STATUS.DONE (10_state.md R26). -/
  done : Bool
  /-- STATUS.OVR (R27). -/
  ovr : Bool
  /-- STATUS.ERR (R28). -/
  err : BitVec 4
  /-- CTRL.IE (R29). -/
  ie : Bool
  /-- KEYLEN (R30). -/
  keyLen : BitVec 9
  /-- DATALEN (R31). -/
  dataLen : BitVec 17
  /-- MX_BASE (R32). -/
  mxBase : Word
  /-- MX_EXP (R32). -/
  mxExp : Word
  /-- MX_MOD (R32). -/
  mxMod : Word
  /-- MX_RESULT (R33). -/
  mxResult : Word
  /-- The key store KEY (R36). -/
  keyStore : Memory
  /-- The permutation store S (R37). -/
  permStore : Memory
  /-- The data store DATA (R38). -/
  dataStore : Memory
  /-- e.phase (R40, R41). -/
  phase : Phase
  /-- e.op (R40). -/
  op : Byte
  /-- e.c (R40). -/
  c : BitVec 9
  /-- e.kidx (R40). -/
  kidx : BitVec 9
  /-- e.i (R40). -/
  i : Byte
  /-- e.j (R40). -/
  j : Byte
  /-- e.k (R40). -/
  k : BitVec 17
  /-- e.acc (R40). -/
  acc : BitVec 64
  /-- e.b (R40). -/
  b : Word
  /-- e.e (R40). -/
  e : Word
  /-- e.m (R40). -/
  m : Word
  /-- rdata and resp_err of the most recent host access (20_memory.md R60; log entry 6). -/
  resp : Option BusResponse
  /-- MODEL'S OWN: how many resets drew the unspecified bytes so far (R191; log entry 3). -/
  epoch : Nat
  /-- MODEL'S OWN: how many unspecified reads were answered so far (R201; log entry 4). -/
  draws : Nat
  /-- MODEL'S OWN: the coming events at the ports, oldest first (00_scope.md R13; log entry 1). -/
  inputs : List Event
  deriving DecidableEq, Repr

/-- The state 10_state.md R44 gives right after a reset step, for any open parameters. -/
def State.afterReset (g : Config) : State :=
  { cfg := g, done := false, ovr := false, err := 0#4, ie := false, keyLen := 0#9, dataLen := 0#17,
    mxBase := 0#32, mxExp := 0#32, mxMod := 0#32, mxResult := 0#32,
    keyStore := [], permStore := [], dataStore := [],
    phase := .idle, op := 0#8, c := 0#9, kidx := 0#9, i := 0#8, j := 0#8, k := 0#17,
    acc := 0#64, b := 0#32, e := 0#32, m := 0#32,
    resp := none, epoch := 0, draws := 0, inputs := [] }

/-- The machine right after reset (10_state.md R44), with the parameters of log entry 5. -/
def State.reset : State := State.afterReset defaultConfig

end Sys2Proof.Machine
end

