-- ==== Sys2Proof/Machine/Flags.lean ====
section
/-! DEFINITION. The flags, the completion codes, the STATUS and CTRL words and the interrupt output
(10_state.md R24 to R29, R39; 60_exceptions.md R161, R165). -/

namespace Sys2Proof.Machine

/-- The completion codes (60_exceptions.md R161). -/
inductive Code
  | ok
  | keyLenZero
  | dataLenZero
  | dataLenRange
  | zeroModulus
  | badCmd
  deriving DecidableEq, Repr

/-- The value a completion writes to STATUS.ERR (60_exceptions.md R161). -/
def codeBits : Code → BitVec 4
  | .ok => 0x0#4
  | .keyLenZero => 0x1#4
  | .dataLenZero => 0x2#4
  | .dataLenRange => 0x3#4
  | .zeroModulus => 0x4#4
  | .badCmd => 0x5#4

/-- `STATUS.BUSY = (e.phase != IDLE)` (10_state.md R25). -/
def State.busy (s : State) : Bool := s.phase != .idle

/-- The irq output: `STATUS.DONE and CTRL.IE` (60_exceptions.md R165). -/
def State.irq (s : State) : Bool := s.done && s.ie

/-- A read of STATUS: `zext_32(ERR ++ 0b00000 ++ OVR ++ DONE ++ BUSY)` (10_state.md R24; 20_memory.md R68). -/
def statusWord (s : State) : Word :=
  (s.err ++ 0#5 ++ BitVec.ofBool s.ovr ++ BitVec.ofBool s.done ++ BitVec.ofBool s.busy).setWidth 32

/-- A read of CTRL: `zext_32(CTRL.IE)` (10_state.md R29). -/
def ctrlWord (s : State) : Word := (BitVec.ofBool s.ie).setWidth 32

/-- A write of STATUS: write 1 to bit 1 clears DONE, to bit 2 clears OVR, in one step (10_state.md R24). -/
def writeStatus (v : Word) (s : State) : State :=
  { s with done := s.done && !v.getLsbD 1, ovr := s.ovr && !v.getLsbD 2 }

/-- A write of CTRL stores bit 0 in IE (10_state.md R29). -/
def writeCtrl (v : Word) (s : State) : State := { s with ie := v.getLsbD 0 }

end Sys2Proof.Machine
end

