-- ==== Sys2Proof/Machine/Operands.lean ====
section
/-! DEFINITION. The implicit operands of the commands (30_encoding.md R91): reading the stores, and the validation of
the lengths (60_exceptions.md R161). -/

namespace Sys2Proof.Machine

/-- The cells of a store. -/
def State.cells (s : State) : Store → Memory
  | .key => s.keyStore
  | .perm => s.permStore
  | .data => s.dataStore

/-- DBUF_SIZE of this machine. -/
def State.dbufSize (s : State) : Nat := s.cfg.dbufSize

/-- How many bytes a store has (00_scope.md R7, R8). -/
def State.storeSize (s : State) : Store → Nat
  | .key => 256
  | .perm => 256
  | .data => s.dbufSize

/-- THE read of one byte of a store: KEY[x], S[x] or DATA[x] (00_scope.md R11; 20_memory.md R71). -/
def State.load (s : State) (st : Store) (x : Nat) : Byte := (s.cells st).read s.epoch st x

/-- S[x] for an 8-bit index, which is always in range. -/
def State.permAt (s : State) (x : Byte) : Byte := s.load .perm x.toNat

/-- The data checks of `validate`: DATALEN_ZERO before DATALEN_RANGE (60_exceptions.md R161). -/
def dataLenCode (s : State) : Option Code :=
  if s.dataLen = 0#17 then some .dataLenZero
  else if s.dbufSize < s.dataLen.toNat then some .dataLenRange
  else none

/-- The key check of `validate`: KEYLEN_ZERO (60_exceptions.md R161). -/
def keyLenCode (s : State) : Option Code := if s.keyLen = 0#9 then some .keyLenZero else none

/-- `validate` for RC4_CIPHER: the data checks come before the key check (60_exceptions.md R161, D15). -/
def cipherCode (s : State) : Option Code :=
  match dataLenCode s with
  | some code => some code
  | none => keyLenCode s

/-- How many key bytes a command reads: min(KEYLEN, 256) (10_state.md R36). -/
def keyBytesRead (s : State) : Nat := min s.keyLen.toNat 256

end Sys2Proof.Machine
end

