-- ==== Sys2Proof/Machine/Ops.lean ====
section
/-! DEFINITION. The named operations the commands, the engine steps and the bus share: writing the stores, window
words, busy gating, completion and rejection (00_scope.md R11; 20_memory.md R64; 60_exceptions.md R162, R163;
70_reset_and_hazards.md R200). The block has no traps: completion with a code is what stands in their place
(60_exceptions.md R164), and the host's acknowledge is `writeStatus` (R168). -/

namespace Sys2Proof.Machine

/-- Write one byte of a store (00_scope.md R11). -/
def storeByte (st : Store) (x : Nat) (v : Byte) (s : State) : State :=
  match st with
  | .key => { s with keyStore := Memory.write .key x v s.keyStore }
  | .perm => { s with permStore := Memory.write .perm x v s.permStore }
  | .data => { s with dataStore := Memory.write .data x v s.dataStore }

/-- `swap(S[a], S[b])`: `t <- S[a]; S[a] <- S[b]; S[b] <- t`, in one step (00_scope.md R11). -/
def swapPerm (a b : Byte) (s : State) : State :=
  storeByte .perm b.toNat (s.permAt a) (storeByte .perm a.toNat (s.permAt b) s)

/-- Bits `[8*n+7 : 8*n]` of a window word (20_memory.md R64). -/
def byteOf (v : Word) (n : Nat) : Byte := v.extractLsb' (8 * n) 8

/-- Window word `w` of a store, little-endian (20_memory.md R64). -/
def loadWord (s : State) (st : Store) (w : Nat) : Word :=
  s.load st (4 * w + 3) ++ s.load st (4 * w + 2) ++ s.load st (4 * w + 1) ++ s.load st (4 * w)

/-- Write window word `w` of a store: all four bytes in one step (20_memory.md R64). -/
def storeWord (st : Store) (w : Nat) (v : Word) (s : State) : State :=
  storeByte st (4 * w + 3) (byteOf v 3) (storeByte st (4 * w + 2) (byteOf v 2)
    (storeByte st (4 * w + 1) (byteOf v 1) (storeByte st (4 * w) (byteOf v 0) s)))

/-- Busy gating: while BUSY = 1 the write is ignored and OVR is set; else it is performed
(70_reset_and_hazards.md R200; 20_memory.md R69). -/
def gated (write : State → State) (s : State) : State :=
  if s.busy then { s with ovr := true } else write s

/-- `complete(code)` (60_exceptions.md R163). -/
def complete (code : Code) (s : State) : State :=
  { s with phase := .idle, err := codeBits code, done := true }

/-- `reject(code)`: exactly `complete(code)`, with e.phase left IDLE (60_exceptions.md R162). -/
def reject (code : Code) (s : State) : State := complete code s

/-- `issue` for a decoded command (60_exceptions.md R160), busy gating included (20_memory.md R69; log entry 9):
reject with the code of `validate`, else start. -/
def issue (code : Option Code) (start : State → State) (s : State) : State :=
  gated (fun s => match code with
    | some r => reject r s
    | none => start s) s

end Sys2Proof.Machine
end

