-- ==== Sys2Proof/Machine/Modexp.lean ====
section
/-! DEFINITION. The MODEXP engine: the command and the square-and-multiply iteration (41_modexp.md R140 to R146). -/

namespace Sys2Proof.Machine

/-- MX_INIT (41_modexp.md R141), for MX_MOD != 0: the accumulator starts at `1 mod e.m` (90_conflicts.md C1;
log entry 8). -/
def mxInit (s : State) : State :=
  { s with
    m := s.mxMod
    b := BitVec.ofNat 32 (s.mxBase.toNat % s.mxMod.toNat)
    e := s.mxExp
    acc := BitVec.ofNat 64 (1 % s.mxMod.toNat) }

/-- MODEXP's completion with OK: MX_RESULT takes the accumulator's low 32 bits (41_modexp.md R140, R142, R143). -/
def mxComplete (s : State) : State := complete .ok { s with mxResult := s.acc.setWidth 32 }

/-- MODEXP's issue after MX_INIT: with a zero exponent it completes at once, else it runs (41_modexp.md R140). -/
def mxStart (s : State) : State := if s.e = 0#32 then mxComplete s else { s with phase := .mx }

/-- The issue step of MODEXP (41_modexp.md R140): the zero modulus is looked at before anything else
(90_conflicts.md C3), and gives the result 0 with the code ZERO_MODULUS. -/
def mxIssue (s : State) : State :=
  if s.mxMod = 0#32 then complete .zeroModulus { s with mxResult := 0#32 } else mxStart (mxInit s)

/-- MODEXP (41_modexp.md R140): the issue step. `validate` has no code for it (60_exceptions.md R161). -/
def execModexp (s : State) : Host.Outcome State Fault Refusal := .next (issue none mxIssue s)

/-- `(x * y) mod m` at full precision (41_modexp.md R146). -/
def mulMod (x y m : Nat) : Nat := (x * y) % m

/-- The accumulator after one step: multiplied if the current exponent bit is set (41_modexp.md R142). -/
def mxAcc (s : State) : BitVec 64 :=
  if s.e.getLsbD 0 then BitVec.ofNat 64 (mulMod s.acc.toNat s.b.toNat s.m.toNat) else s.acc

/-- The end of an MX step (41_modexp.md R142). -/
def mxEnd (s : State) : State := if s.e = 0#32 then mxComplete s else s

/-- The body of an MX step (41_modexp.md R142): the multiply uses the base from before the squaring, and the base is
always squared. -/
def mxBody (s : State) : State :=
  mxEnd { s with
    acc := mxAcc s
    b := BitVec.ofNat 32 (mulMod s.b.toNat s.b.toNat s.m.toNat)
    e := s.e >>> 1 }

/-- MX_STEP (41_modexp.md R142). A position the rule says never arises has no step. -/
def mxStep (s : State) : Host.Outcome State Fault Refusal :=
  if s.e ≠ 0#32 ∧ s.m ≠ 0#32 then .next (mxBody s) else .fault .mxPosition

end Sys2Proof.Machine
end

