-- ==== Sys2Proof/Machine/Rc4.lean ====
section
/-! DEFINITION. The RC4 engine: the three commands and the KSA and PRGA iterations (40_rc4.md R110 to R118). -/

namespace Sys2Proof.Machine

/-- The opcodes e.op can hold (40_rc4.md R110, R111, R112). -/
def opCipher : Byte := 0x01#8
def opSchedule : Byte := 0x02#8
def opGenerate : Byte := 0x03#8

/-- KSA_INIT (40_rc4.md R114): S becomes the identity, which is what a store with no listed cell holds.
The start value 0 of e.j is the rule's (PRESUMED by it, log entry 13). -/
def ksaInit (s : State) : State := { s with permStore := [], c := 0#9, j := 0#8, kidx := 0#9 }

/-- PRGA_INIT (40_rc4.md R117): S is not changed. -/
def prgaInit (s : State) : State := { s with i := 0#8, j := 0#8, k := 0#17 }

/-- The start of a command that schedules (40_rc4.md R110, R111). -/
def startKsa (opc : Byte) (s : State) : State := { ksaInit { s with op := opc } with phase := .ksa }

/-- The start of RC4_GENERATE (40_rc4.md R112). -/
def startPrga (opc : Byte) (s : State) : State := { prgaInit { s with op := opc } with phase := .prga }

/-- RC4_CIPHER (40_rc4.md R110): the issue step. -/
def execRc4Cipher (s : State) : Host.Outcome State Fault Refusal :=
  .next (issue (cipherCode s) (startKsa opCipher) s)

/-- RC4_SCHEDULE (40_rc4.md R111): the issue step. DATALEN is not read. -/
def execRc4Schedule (s : State) : Host.Outcome State Fault Refusal :=
  .next (issue (keyLenCode s) (startKsa opSchedule) s)

/-- RC4_GENERATE (40_rc4.md R112): the issue step. KEYLEN is not read, and S is not initialised. -/
def execRc4Generate (s : State) : Host.Outcome State Fault Refusal :=
  .next (issue (dataLenCode s) (startPrga opGenerate) s)

/-- The key-index counter after one KSA step: it wraps at KEYLEN, not at 256 (40_rc4.md R113). -/
def nextKidx (keyLen kidx : BitVec 9) : BitVec 9 := if kidx + 1#9 = keyLen then 0#9 else kidx + 1#9

/-- The end of a KSA step: after the 256th, RC4_CIPHER goes on to generation and RC4_SCHEDULE completes
(40_rc4.md R115). -/
def ksaEnd (s : State) : State :=
  if s.c = 256#9 then
    if s.op = opCipher then { prgaInit s with phase := .prga } else complete .ok s
  else s

/-- The new e.j of a KSA step: S[e.c] is read before the swap, and the sum wraps modulo 256 (40_rc4.md R115). -/
def ksaJ (s : State) : Byte := s.j + s.permAt (s.c.setWidth 8) + s.load .key s.kidx.toNat

/-- The first two lines of a KSA step: the swap uses the new e.j (40_rc4.md R115). -/
def ksaSwap (s : State) : State := swapPerm (s.c.setWidth 8) (ksaJ s) { s with j := ksaJ s }

/-- The counters' update of a KSA step (40_rc4.md R115). -/
def ksaAdvance (s : State) : State := { s with kidx := nextKidx s.keyLen s.kidx, c := s.c + 1#9 }

/-- The body of a KSA step (40_rc4.md R115). -/
def ksaBody (s : State) : State := ksaEnd (ksaAdvance (ksaSwap s))

/-- KSA_STEP (40_rc4.md R115). A position the rule says never arises has no step. -/
def ksaStep (s : State) : Host.Outcome State Fault Refusal :=
  if s.c.toNat < 256 ∧ s.kidx.toNat < 256 then .next (ksaBody s) else .fault .ksaPosition

/-- The end of a PRGA step (40_rc4.md R118). -/
def prgaEnd (s : State) : State := if s.k = s.dataLen then complete .ok s else s

/-- The new e.i and e.j of a PRGA step: S[e.i] with the new e.i (40_rc4.md R118). -/
def prgaI (s : State) : Byte := s.i + 1#8
def prgaJ (s : State) : Byte := s.j + s.permAt (prgaI s)

/-- The first three lines of a PRGA step (40_rc4.md R118). -/
def prgaSwap (s : State) : State := swapPerm (prgaI s) (prgaJ s) { s with i := prgaI s, j := prgaJ s }

/-- The keystream byte S[t], t = S[e.i] + S[e.j], of the state after the swap (40_rc4.md R118). -/
def prgaKs (s : State) : Byte := s.permAt (s.permAt s.i + s.permAt s.j)

/-- The exclusive-or into DATA[e.k], and e.k's update, of the state after the swap (40_rc4.md R118). -/
def prgaCombine (s : State) : State :=
  { storeByte .data s.k.toNat (s.load .data s.k.toNat ^^^ prgaKs s) s with k := s.k + 1#17 }

/-- The body of a PRGA step (40_rc4.md R118). -/
def prgaBody (s : State) : State := prgaEnd (prgaCombine (prgaSwap s))

/-- PRGA_STEP (40_rc4.md R118). A position the rule says never arises has no step. -/
def prgaStep (s : State) : Host.Outcome State Fault Refusal :=
  if s.k.toNat < s.dataLen.toNat ∧ s.k.toNat < s.dbufSize then .next (prgaBody s) else .fault .prgaPosition

end Sys2Proof.Machine
end

