-- ==== Sys2Proof/Machine/Dispatch.lean ====
section
/-! DEFINITION. One arm per command: what a write of the command's word to CMD does (60_exceptions.md R160). -/

namespace Sys2Proof.Machine

def exec (i : Instr) (s : State) : Host.Outcome State Fault Refusal :=
  match i with
  | .rc4Cipher => Sys2Proof.Machine.execRc4Cipher s
  | .rc4Schedule => Sys2Proof.Machine.execRc4Schedule s
  | .rc4Generate => Sys2Proof.Machine.execRc4Generate s
  | .modexp => Sys2Proof.Machine.execModexp s

end Sys2Proof.Machine
end

