-- ==== Sys2Proof/Machine/Bus.lean ====
section
/-! DEFINITION. The host's bus accesses (20_memory.md R62 to R70; 70_reset_and_hazards.md R200, R201). -/

namespace Sys2Proof.Machine

/-- The value a read returns when BUSY = 1 leaves it unspecified (70_reset_and_hazards.md R201), else `exact`. -/
def maskedRead (s : State) (exact : Word) : Word := if s.busy then Config.busyRead s.draws else exact

/-- The response to BusRead at a location (20_memory.md R68). -/
def readLoc (s : State) : Loc → BusResponse
  | .misaligned => .read 0#32 true
  | .cmd => .read 0#32 false
  | .status => .read (statusWord s) false
  | .ctrl => .read (ctrlWord s) false
  | .keyLen => .read (s.keyLen.setWidth 32) false
  | .dataLen => .read (s.dataLen.setWidth 32) false
  | .mxBase => .read s.mxBase false
  | .mxExp => .read s.mxExp false
  | .mxMod => .read s.mxMod false
  | .mxResult => .read (maskedRead s s.mxResult) false
  | .cfg => .read (BitVec.ofNat 32 s.dbufSize) false
  | .key w => .read (loadWord s .key w) false
  | .perm w => .read (maskedRead s (loadWord s .perm w)) false
  | .data w => .read (maskedRead s (loadWord s .data w)) false
  | .unmapped => .read 0#32 true

/-- The locations whose reads are unspecified while BUSY = 1 (70_reset_and_hazards.md R201). -/
def unspecifiedWhileBusy : Loc → Bool
  | .mxResult => true
  | .perm _ => true
  | .data _ => true
  | _ => false

/-- BusRead (20_memory.md R68). It changes nothing the spec calls state; an unspecified read uses up one draw
(log entry 4). -/
def busRead (off : Offset) (s : State) : State :=
  let l := locate s.dbufSize off
  { s with
    resp := some (readLoc s l)
    draws := if s.busy && unspecifiedWhileBusy l then s.draws + 1 else s.draws }

/-- A write of a word to CMD (10_state.md R23; 60_exceptions.md R160): a decoded command is issued, a BAD word is
rejected with BAD_CMD (30_encoding.md R93). Both are gated by BUSY (70_reset_and_hazards.md R200). -/
def writeCmd (v : Word) (s : State) : Host.Outcome State Fault Refusal :=
  match decode v with
  | .command i => exec i s
  | .bad _ => .next (gated (reject .badCmd) s)

/-- What a write does to the state at a location other than CMD (20_memory.md R69). -/
def writeLoc (v : Word) (s : State) : Loc → State
  | .misaligned => s
  | .cmd => s
  | .status => writeStatus v s
  | .ctrl => writeCtrl v s
  | .keyLen => gated (fun s => { s with keyLen := v.setWidth 9 }) s
  | .dataLen => gated (fun s => { s with dataLen := v.setWidth 17 }) s
  | .mxBase => gated (fun s => { s with mxBase := v }) s
  | .mxExp => gated (fun s => { s with mxExp := v }) s
  | .mxMod => gated (fun s => { s with mxMod := v }) s
  | .mxResult => s
  | .cfg => s
  | .key w => gated (storeWord .key w v) s
  | .perm _ => s
  | .data w => gated (storeWord .data w v) s
  | .unmapped => s

/-- Whether the response to a write is ERR (20_memory.md R63, R67). -/
def writeErr : Loc → Bool
  | .misaligned => true
  | .unmapped => true
  | _ => false

/-- The state with the response to a write recorded (20_memory.md R60). -/
def respondWrite (err : Bool) (s : State) : State := { s with resp := some (.write err) }

/-- An outcome with the response to a write recorded. -/
def answerWrite (err : Bool) : Host.Outcome State Fault Refusal → Host.Outcome State Fault Refusal
  | .next t => .next (respondWrite err t)
  | .fault f => .fault f
  | .refused r => .refused r

/-- BusWrite (20_memory.md R69). -/
def busWrite (off : Offset) (v : Word) (s : State) : Host.Outcome State Fault Refusal :=
  match locate s.dbufSize off with
  | .cmd => answerWrite false (writeCmd v s)
  | l => .next (respondWrite (writeErr l) (writeLoc v s l))

/-- One host access. -/
def busAccess (a : Access) (s : State) : Host.Outcome State Fault Refusal :=
  match a with
  | .read off => .next (busRead off s)
  | .write off v => busWrite off v s

end Sys2Proof.Machine
end

