-- ==== Sys2Proof/Machine/Reset.lean ====
section
/-! DEFINITION. The reset step (70_reset_and_hazards.md R190 to R192). -/

namespace Sys2Proof.Machine

/-- The response to an access presented in a cycle with rst_n low: it has no effect, and returns rdata = 0 and
resp_err = 0 (70_reset_and_hazards.md R192). -/
def resetResponse : Access → BusResponse
  | .read _ => .read 0#32 false
  | .write _ _ => .write false

/-- A reset step: every state element takes its value from 10_state.md R44, KEY and DATA are drawn anew (R191), and
a running command is abandoned. The parameters, the draw counters and the events still to come are not state the
reset touches. -/
def resetStep (presented : Option Access) (s : State) : State :=
  { State.afterReset s.cfg with
    resp := presented.map resetResponse
    epoch := s.epoch + 1
    draws := s.draws
    inputs := s.inputs }

end Sys2Proof.Machine
end

