-- ==== Sys2Proof/Machine/Engine.lean ====
section
/-! DEFINITION. The engine's turn and the events at the ports (00_scope.md R13; 10_state.md R41). -/

namespace Sys2Proof.Machine

/-- The engine's turn: one engine step while BUSY = 1; none is enabled in IDLE (00_scope.md R13; 10_state.md R41). -/
def engineTurn (s : State) : Host.Outcome State Fault Refusal :=
  match s.phase with
  | .idle => .next s
  | .ksa => ksaStep s
  | .prga => prgaStep s
  | .mx => mxStep s

/-- What one event does. -/
def runEvent (ev : Event) (s : State) : Host.Outcome State Fault Refusal :=
  match ev with
  | .access a => busAccess a s
  | .engine => engineTurn s
  | .reset presented => .next (resetStep presented s)

/-- One step: the oldest coming event, or the engine's turn when none is listed (log entry 1). -/
def takeStep (s : State) : Host.Outcome State Fault Refusal :=
  match s.inputs with
  | [] => engineTurn s
  | ev :: rest => runEvent ev { s with inputs := rest }

/-- The host presents the word `w` to CMD as the next event: how a command reaches the block (10_state.md R23). The
command word has 32 bits, so no bit above them exists (30_encoding.md R95). -/
def presentCommand (w : Nat) (s : State) : State :=
  { s with inputs := .access (.write cmdOff (BitVec.ofNat 32 w)) :: s.inputs }

end Sys2Proof.Machine
end

