-- ==== Sys2Proof/Machine/Step.lean ====
section
/-! DEFINITION. One step of the block, and the state in which the next step runs a given command. -/

namespace Sys2Proof.Machine

/-- One step (00_scope.md R13). -/
def step (s : State) : Host.Outcome State Fault Refusal := takeStep s

/-- The block fetches no instructions (10_state.md R21): a command comes by a host write to CMD. So the word is
stored as the next event at the port (log entry 2); `nbits` is 32 for every row. -/
def State.withFetchWord (s : State) (nbits w : Nat) : State := presentCommand (w % 2 ^ nbits) s

end Sys2Proof.Machine
end

