-- ==== Sys2Proof/Machine/Pure.lean ====
section
/-! DEFINITION. The pure functions the commands compute (40_rc4.md R119; 41_modexp.md R144, R145). They are not part of
the machine: claims compare the machine's end states with them. A permutation is a function of an 8-bit index here. -/

namespace Sys2Proof.Machine

/-- `swap(S[a], S[b])` (00_scope.md R11). -/
def swapAt (S : Byte → Byte) (a b : Byte) : Byte → Byte :=
  fun x => if x = a then S b else if x = b then S a else S x

/-- The permutation and the index j after the first `n` iterations of `KSA(KEY, L)` (40_rc4.md R119). -/
def ksaLoop (key : Nat → Byte) (len : Nat) : Nat → (Byte → Byte) × Byte
  | 0 => (fun x => x, 0#8)
  | n + 1 =>
    let p := ksaLoop key len n
    let j := p.2 + p.1 (BitVec.ofNat 8 n) + key (n % len)
    (swapAt p.1 (BitVec.ofNat 8 n) j, j)

/-- `KSA(KEY, L)` (40_rc4.md R119). -/
def ksa (key : Nat → Byte) (len : Nat) : Byte → Byte := (ksaLoop key len 256).1

/-- The permutation and the indices i and j after the first `n` iterations of `PRGA(S, ·)` (40_rc4.md R119). -/
def prgaLoop (S : Byte → Byte) : Nat → (Byte → Byte) × Byte × Byte
  | 0 => (S, 0#8, 0#8)
  | n + 1 =>
    let p := prgaLoop S n
    let i := p.2.1 + 1#8
    let j := p.2.2 + p.1 i
    (swapAt p.1 i j, i, j)

/-- The final permutation of `PRGA(S, n)` (40_rc4.md R119). -/
def prgaPerm (S : Byte → Byte) (n : Nat) : Byte → Byte := (prgaLoop S n).1

/-- The keystream byte ks[k] of `PRGA(S, n)`, for k < n (40_rc4.md R119): it depends on S and k only. -/
def keystream (S : Byte → Byte) (k : Nat) : Byte :=
  let p := prgaLoop S (k + 1)
  p.1 (p.1 p.2.1 + p.1 p.2.2)

/-- `modexp(B, E, M)` over the integers (41_modexp.md R145). -/
def modexpOf (base exp mod : Nat) : Nat := if mod = 0 then 0 else base ^ exp % mod

/-- `bitlen(0) = 0`, else `bitlen(x) = floor(log2 x) + 1` (41_modexp.md R144). -/
def bitlen (x : Nat) : Nat := if x = 0 then 0 else Nat.log2 x + 1

end Sys2Proof.Machine
end

