-- ==== Sys2Proof/Safety.lean ====
section
/-! DEFINITION. The legal states of the block, and the terms claims are stated in. -/

namespace Sys2Proof.Machine

/-- 10_state.md R42: each value appears exactly once in S. -/
def PermBijective (s : State) : Prop := ∀ v : Byte, ∃ x : Byte, s.permAt x = v ∧ ∀ y : Byte, s.permAt y = v → y = x

/-- The legal states: what the spec says holds in every state of the block.
Every step from a legal state answers a legal state, and reset is one. -/
structure Inv (s : State) : Prop where
  /-- 10_state.md R42. -/
  permBijective : PermBijective s
  /-- Only the codes 0x0 to 0x5 are ever written to STATUS.ERR (10_state.md R28). -/
  errCode : s.err.toNat ≤ 5
  /-- Each store's cells are in canonical form and inside the store (10_state.md R36 to R38). -/
  keyCells : Memory.wf .key 256 s.keyStore = true
  permCells : Memory.wf .perm 256 s.permStore = true
  dataCells : Memory.wf .data s.dbufSize s.dataStore = true
  /-- The ranges of e.c and e.kidx (10_state.md R40, C7). -/
  cRange : s.c.toNat ≤ 256
  kidxRange : s.kidx.toNat ≤ 256
  /-- e.b and e.acc are reduced whenever e.m is a modulus (10_state.md R40; 41_modexp.md R143; log entry 11). -/
  mxReduced : s.m ≠ 0#32 → s.b.toNat < s.m.toNat ∧ s.acc.toNat < s.m.toNat
  /-- The position of the running schedule (40_rc4.md R113, R115, R116). -/
  ksaPhase : s.phase = .ksa →
    s.c.toNat < 256 ∧ s.keyLen ≠ 0#9 ∧ s.kidx.toNat = s.c.toNat % s.keyLen.toNat ∧
      (s.op = opCipher ∧ 1 ≤ s.dataLen.toNat ∧ s.dataLen.toNat ≤ s.dbufSize ∨ s.op = opSchedule)
  /-- The position of the running generation (40_rc4.md R116, R118). -/
  prgaPhase : s.phase = .prga →
    (s.op = opCipher ∨ s.op = opGenerate) ∧ s.k.toNat < s.dataLen.toNat ∧ s.dataLen.toNat ≤ s.dbufSize
  /-- The position of the running exponentiation (41_modexp.md R142). -/
  mxPhase : s.phase = .mx → s.e ≠ 0#32 ∧ s.m ≠ 0#32

/-- `n` steps, stopping at the first fault or refusal: the host's `Core.run` of this machine. -/
def run : Nat → State → Host.Outcome State Fault Refusal
  | 0, s => .next s
  | n + 1, s =>
    match step s with
    | .next t => run n t
    | .fault f => .fault f
    | .refused r => .refused r

/-- How many engine steps the running command still takes (40_rc4.md R124; 41_modexp.md R144). -/
def stepsLeft (s : State) : Nat :=
  match s.phase with
  | .idle => 0
  | .ksa => 256 - s.c.toNat + (if s.op = opCipher then s.dataLen.toNat else 0)
  | .prga => s.dataLen.toNat - s.k.toNat
  | .mx => bitlen s.e.toNat

/-- The state whose next step is the host access `a`; everything else is `s`. -/
def State.presenting (s : State) (a : Access) : State := { s with inputs := .access a :: s.inputs }

/-- The state whose next step is a reset cycle; everything else is `s`. -/
def State.resetting (s : State) (presented : Option Access) : State :=
  { s with inputs := .reset presented :: s.inputs }

/-- The next step is the engine's turn. -/
def EngineNext (s : State) : Prop := s.inputs = [] ∨ ∃ rest, s.inputs = .engine :: rest

/-- The next step is a host write of `v` at the offset `a`. -/
def WriteNext (s : State) (a : Nat) (v : Word) : Prop :=
  ∃ off rest, s.inputs = .access (.write off v) :: rest ∧ off.toNat = a

/-- The next step is a reset cycle. -/
def ResetNext (s : State) : Prop := ∃ p rest, s.inputs = .reset p :: rest

/-- A read at `off` answers `v` with resp_err = 0 and changes nothing. -/
def ReadsAs (s : State) (off : Offset) (v : Word) : Prop :=
  step (s.presenting (.read off)) = .next { s with resp := some (.read v false) }

/-- The locations whose writes BUSY gates, by offset (70_reset_and_hazards.md R200). -/
def GatedOffset (size : Nat) (a : Nat) : Prop :=
  a = 0x00000 ∨ a = 0x0000C ∨ a = 0x00010 ∨ a = 0x00014 ∨ a = 0x00018 ∨ a = 0x0001C ∨
    (∃ w, w < 64 ∧ a = 0x00100 + 4 * w) ∨ (∃ w, 4 * w < size ∧ a = 0x10000 + 4 * w)

/-- The offsets 10_state.md R22 lists as unmapped, for a data store of `size` bytes (20_memory.md R67). -/
def UnmappedOffset (size : Nat) (a : Nat) : Prop :=
  (0x00028 ≤ a ∧ a ≤ 0x000FF) ∨ (0x00300 ≤ a ∧ a ≤ 0x0FFFF) ∨ (0x10000 + size ≤ a ∧ a ≤ 0x1FFFF)

/-- The values 10_state.md R44 gives for a state right after reset. For KEY and DATA, which R44 leaves
unspecified, it says that they hold the free values of the reset's number (log entry 3). -/
structure HasResetValues (t : State) : Prop where
  busy : t.busy = false
  done : t.done = false
  ovr : t.ovr = false
  err : t.err = 0x0#4
  ie : t.ie = false
  keyLen : t.keyLen = 0#9
  dataLen : t.dataLen = 0#17
  mxBase : t.mxBase = 0#32
  mxExp : t.mxExp = 0#32
  mxMod : t.mxMod = 0#32
  mxResult : t.mxResult = 0#32
  perm : ∀ x : Byte, t.permAt x = x
  key : ∀ x, x < 256 → t.load .key x = Config.resetByte t.epoch .key x
  data : ∀ x, x < t.dbufSize → t.load .data x = Config.resetByte t.epoch .data x
  phase : t.phase = .idle
  engine : t.op = 0#8 ∧ t.c = 0#9 ∧ t.kidx = 0#9 ∧ t.i = 0#8 ∧ t.j = 0#8 ∧ t.k = 0#17 ∧ t.acc = 0#64 ∧
    t.b = 0#32 ∧ t.e = 0#32 ∧ t.m = 0#32
  irq : t.irq = false

/-- The state of the MODEXP engine and its registers is the same (41_modexp.md R147). -/
def SameMx (s t : State) : Prop :=
  t.mxBase = s.mxBase ∧ t.mxExp = s.mxExp ∧ t.mxMod = s.mxMod ∧ t.mxResult = s.mxResult ∧
    t.acc = s.acc ∧ t.b = s.b ∧ t.e = s.e ∧ t.m = s.m

/-- The state of the RC4 engine, its registers and the stores is the same (41_modexp.md R147). -/
def SameRc4 (s t : State) : Prop :=
  t.cfg = s.cfg ∧ t.epoch = s.epoch ∧ t.keyLen = s.keyLen ∧ t.dataLen = s.dataLen ∧
    t.keyStore = s.keyStore ∧ t.permStore = s.permStore ∧ t.dataStore = s.dataStore ∧
    t.op = s.op ∧ t.c = s.c ∧ t.kidx = s.kidx ∧ t.i = s.i ∧ t.j = s.j ∧ t.k = s.k

/-- BUSY is 1 after each of the first `n` numbers of steps from `u`. -/
def BusyFor (n : Nat) (u : State) : Prop :=
  ∀ i, i < n → ∃ w, run i u = .next w ∧ w.busy = true

/-- The state from which RC4_CIPHER is accepted (60_exceptions.md R161), with no host event to come. -/
def CipherReady (s : State) : Prop :=
  s.phase = .idle ∧ s.inputs = [] ∧ 1 ≤ s.dataLen.toNat ∧ s.dataLen.toNat ≤ s.dbufSize ∧ s.keyLen ≠ 0#9

/-- A safe run: no number of steps ends in a fault or a refusal. -/
def SafeFrom (s : State) : Prop := ∀ n, ∃ t, run n s = .next t

end Sys2Proof.Machine
end

