-- ==== Sys2Proof/Certificates/Slice0/Obligations.lean ====
section
/-! DEFINITION. The statements about the block, for the provers. Every statement holds for any legal value of
DBUF_SIZE, BASE and LAT, and for every value of the free values. -/

open Sys2Proof Sys2Proof.Machine

/-! ## Command words -/

/-- 30_encoding.md R92: a word selects a command only if it equals the full 32-bit value given. -/
def Obligations.DecodeAcceptsExactlyTheTableWords : Prop :=
  ∀ v : Word,
    (decode v = .command .rc4Cipher ↔ v = 0x00000001#32) ∧
    (decode v = .command .rc4Schedule ↔ v = 0x00000002#32) ∧
    (decode v = .command .rc4Generate ↔ v = 0x00000003#32) ∧
    (decode v = .command .modexp ↔ v = 0x00000010#32)

/-- 30_encoding.md R93: decoding the word of a well-formed command gives the command back. -/
def Obligations.DecodeOfEncodeIsTheCommand : Prop :=
  ∀ i : Instr, i.wellFormed = true → decode (encode i) = .command i

/-- 30_encoding.md R93, R94: which words are illegal. That a BAD word carries one of two named grounds (`reservedNonzero`,
looked at first, or `undefinedOp` with the OP) is the model's own (log entry 16, DEDUCED): R93 answers plain BAD, the block
records no ground, and a word such as 0xFFFFFFFF is illegal on both of R94's grounds. -/
def Obligations.IllegalWordsAreBadByName : Prop :=
  ∀ v : Word,
    (v.toNat / 256 ≠ 0 → decode v = .bad .reservedNonzero) ∧
    (v.toNat / 256 = 0 → v.toNat % 256 ≠ 0x01 → v.toNat % 256 ≠ 0x02 → v.toNat % 256 ≠ 0x03 → v.toNat % 256 ≠ 0x10 →
      decode v = .bad (.undefinedOp (BitVec.ofNat 8 v.toNat))) ∧
    (wordWellFormed v = true ↔ ∃ i, decode v = .command i)

/-- Sanity: the four words of the table, as the host numbers them, and the illegal words of
95_test_vectors.md V18. -/
def Obligations.TableWordsDecodeAndIllegalWordsDoNot : Prop :=
  decodeTableWord 32 0x00000001 = some .rc4Cipher ∧ decodeTableWord 32 0x00000002 = some .rc4Schedule ∧
  decodeTableWord 32 0x00000003 = some .rc4Generate ∧ decodeTableWord 32 0x00000010 = some .modexp ∧
  [0x00000000, 0x00000004, 0x0000000F, 0x00000011, 0x000000FF, 0x00000101, 0x80000001, 0x00000110, 0xFFFFFFFF].map
    (decodeTableWord 32) = List.replicate 9 none

/-! ## Steps -/

/-- 60_exceptions.md R160, 20_memory.md R69: the four commands always answer a next state, and a step on a host write of
a command's word to CMD is `exec` of that command, with the response OK recorded. -/
def Obligations.CommandWriteRunsTheDecodedCommand : Prop :=
  ∀ (s : State) (v : Word) (i : Instr), decode v = .command i → i.wellFormed = true →
    ∃ t, exec i s = .next t ∧ step (s.presenting (.write cmdOff v)) = .next { t with resp := some (.write false) }

/-- 60_exceptions.md R160, R161, R162: a BAD word is rejected with BAD_CMD (0x5) and changes nothing but the completion
record; while BUSY = 1 it is ignored and sets OVR. -/
def Obligations.BadCommandWordIsRejected : Prop :=
  ∀ (s : State) (v : Word) (why : BadCommand), decode v = .bad why →
    (s.phase = .idle →
      step (s.presenting (.write cmdOff v)) =
        .next { s with err := 0x5#4, done := true, resp := some (.write false) }) ∧
    (s.phase ≠ .idle →
      step (s.presenting (.write cmdOff v)) = .next { s with ovr := true, resp := some (.write false) })

/-- 00_scope.md R13, 10_state.md R41: which step is taken: the oldest listed event, be it a host access, the engine's turn
or a reset cycle. With no event to come the engine has its turn (the model's choice, as is the list itself, log entry 1);
in IDLE no engine step is enabled. -/
def Obligations.EngineTurnFollowsThePhase : Prop :=
  ∀ s : State,
    (s.inputs = [] → step s = engineTurn s) ∧
    (∀ a rest, s.inputs = .access a :: rest → step s = busAccess a { s with inputs := rest }) ∧
    (∀ rest, s.inputs = .engine :: rest → step s = engineTurn { s with inputs := rest }) ∧
    (∀ p rest, s.inputs = .reset p :: rest → step s = .next (resetStep p { s with inputs := rest })) ∧
    (s.phase = .idle → engineTurn s = .next s) ∧
    (s.phase = .ksa → engineTurn s = ksaStep s) ∧
    (s.phase = .prga → engineTurn s = prgaStep s) ∧
    (s.phase = .mx → engineTurn s = mxStep s)

/-! ## Issuing the commands -/

/-- 40_rc4.md R110 (issue), R114: an accepted RC4_CIPHER makes S the identity, clears the schedule's indices and goes
to KSA, and changes nothing else. -/
def Obligations.Rc4CipherStarts : Prop :=
  ∀ s : State, s.phase = .idle → s.dataLen ≠ 0#17 → s.dataLen.toNat ≤ s.dbufSize → s.keyLen ≠ 0#9 →
    ∃ t, exec .rc4Cipher s = .next t ∧
      t = { s with permStore := t.permStore, op := 0x01#8, c := 0#9, j := 0#8, kidx := 0#9, phase := .ksa } ∧
      (∀ x : Byte, t.permAt x = x) ∧ t.busy = true

/-- 40_rc4.md R111 (issue), R114: an accepted RC4_SCHEDULE, whatever DATALEN is. -/
def Obligations.Rc4ScheduleStarts : Prop :=
  ∀ s : State, s.phase = .idle → s.keyLen ≠ 0#9 →
    ∃ t, exec .rc4Schedule s = .next t ∧
      t = { s with permStore := t.permStore, op := 0x02#8, c := 0#9, j := 0#8, kidx := 0#9, phase := .ksa } ∧
      (∀ x : Byte, t.permAt x = x) ∧ t.busy = true

/-- 40_rc4.md R112 (issue), R117: an accepted RC4_GENERATE, whatever KEYLEN is; S is not initialised. -/
def Obligations.Rc4GenerateStarts : Prop :=
  ∀ s : State, s.phase = .idle → s.dataLen ≠ 0#17 → s.dataLen.toNat ≤ s.dbufSize →
    exec .rc4Generate s = .next { s with op := 0x03#8, i := 0#8, j := 0#8, k := 0#17, phase := .prga }

/-- 41_modexp.md R140 (issue), R141: the three cases of MODEXP's issue step. -/
def Obligations.ModexpIssues : Prop :=
  ∀ s : State, s.phase = .idle →
    (s.mxMod = 0#32 →
      exec .modexp s = .next { s with mxResult := 0#32, err := 0x4#4, done := true }) ∧
    (s.mxMod ≠ 0#32 → s.mxExp = 0#32 →
      exec .modexp s = .next { s with
        m := s.mxMod, b := BitVec.ofNat 32 (s.mxBase.toNat % s.mxMod.toNat), e := 0#32,
        acc := BitVec.ofNat 64 (1 % s.mxMod.toNat),
        mxResult := BitVec.ofNat 32 (1 % s.mxMod.toNat), err := 0x0#4, done := true }) ∧
    (s.mxMod ≠ 0#32 → s.mxExp ≠ 0#32 →
      exec .modexp s = .next { s with
        m := s.mxMod, b := BitVec.ofNat 32 (s.mxBase.toNat % s.mxMod.toNat), e := s.mxExp,
        acc := BitVec.ofNat 64 (1 % s.mxMod.toNat), phase := .mx })

/-- 60_exceptions.md R161, R162: the first code that applies, in R161's order, and a rejection that changes nothing
but ERR and DONE. -/
def Obligations.RejectionReportsTheFirstCode : Prop :=
  ∀ s : State, s.phase = .idle →
    (s.dataLen = 0#17 → exec .rc4Cipher s = .next { s with err := 0x2#4, done := true }) ∧
    (s.dbufSize < s.dataLen.toNat → exec .rc4Cipher s = .next { s with err := 0x3#4, done := true }) ∧
    (s.dataLen ≠ 0#17 → s.dataLen.toNat ≤ s.dbufSize → s.keyLen = 0#9 →
      exec .rc4Cipher s = .next { s with err := 0x1#4, done := true }) ∧
    (s.keyLen = 0#9 → exec .rc4Schedule s = .next { s with err := 0x1#4, done := true }) ∧
    (s.dataLen = 0#17 → exec .rc4Generate s = .next { s with err := 0x2#4, done := true }) ∧
    (s.dbufSize < s.dataLen.toNat → exec .rc4Generate s = .next { s with err := 0x3#4, done := true })

/-- 60_exceptions.md R160, 70_reset_and_hazards.md R200: while BUSY = 1 a command is dropped and OVR is set. -/
def Obligations.CommandWhileBusyOnlySetsOvr : Prop :=
  ∀ (s : State) (i : Instr), s.phase ≠ .idle → exec i s = .next { s with ovr := true }

/-! ## The engine steps -/

/-- 40_rc4.md R115: in a legal state the step's position is in range, and there one KSA step, with its end, never stops and
has this whole effect: S, e.j, e.kidx, e.c, and after the 256th step either PRGA_INIT or the completion; every other
field and every byte of KEY and DATA is unchanged. -/
def Obligations.KsaStepFollowsItsRule : Prop :=
  ∀ s : State, s.phase = .ksa →
    (Inv s → s.c.toNat ≤ 255 ∧ s.kidx.toNat ≤ 255 ∧ Memory.wf .perm 256 s.permStore = true) ∧
    (s.c.toNat ≤ 255 → s.kidx.toNat ≤ 255 → Memory.wf .perm 256 s.permStore = true →
    ∃ t, engineTurn s = .next t ∧
      (let cx : Byte := BitVec.ofNat 8 s.c.toNat
       let j : Byte := BitVec.ofNat 8 ((s.j.toNat + (s.permAt cx).toNat + (s.load .key s.kidx.toNat).toNat) % 256)
       let kidx : BitVec 9 := if s.kidx.toNat + 1 = s.keyLen.toNat then 0#9 else BitVec.ofNat 9 (s.kidx.toNat + 1)
       (∀ x : Byte, t.permAt x = if x = cx then s.permAt j else if x = j then s.permAt cx else s.permAt x) ∧
       (s.c.toNat < 255 →
         t = { s with permStore := t.permStore, j := j, kidx := kidx, c := BitVec.ofNat 9 (s.c.toNat + 1) }) ∧
       (s.c.toNat = 255 → s.op = 0x01#8 →
         t = { s with permStore := t.permStore, kidx := kidx, c := 256#9, i := 0#8, j := 0#8, k := 0#17,
                      phase := .prga }) ∧
       (s.c.toNat = 255 → s.op ≠ 0x01#8 →
         t = { s with permStore := t.permStore, j := j, kidx := kidx, c := 256#9,
                      phase := .idle, err := 0x0#4, done := true })))

/-- 40_rc4.md R118: in a legal state the step's position is in range, and there one PRGA step, with its end, never stops.
DATA changes at e.k only, and no byte of KEY changes. -/
def Obligations.PrgaStepFollowsItsRule : Prop :=
  ∀ s : State, s.phase = .prga →
    (Inv s → s.k.toNat < s.dataLen.toNat ∧ s.dataLen.toNat ≤ s.dbufSize ∧
      Memory.wf .perm 256 s.permStore = true) ∧
    (s.k.toNat < s.dataLen.toNat → s.dataLen.toNat ≤ s.dbufSize → Memory.wf .perm 256 s.permStore = true →
    ∃ t, engineTurn s = .next t ∧
      (let i : Byte := BitVec.ofNat 8 ((s.i.toNat + 1) % 256)
       let j : Byte := BitVec.ofNat 8 ((s.j.toNat + (s.permAt i).toNat) % 256)
       let S : Byte → Byte := fun x => if x = i then s.permAt j else if x = j then s.permAt i else s.permAt x
       let ks : Byte := S (BitVec.ofNat 8 (((S i).toNat + (S j).toNat) % 256))
       (∀ x : Byte, t.permAt x = S x) ∧
       t.load .data s.k.toNat = s.load .data s.k.toNat ^^^ ks ∧
       (∀ x, x ≠ s.k.toNat → t.load .data x = s.load .data x) ∧
       (s.k.toNat + 1 < s.dataLen.toNat →
         t = { s with permStore := t.permStore, dataStore := t.dataStore, i := i, j := j,
                      k := BitVec.ofNat 17 (s.k.toNat + 1) }) ∧
       (s.k.toNat + 1 = s.dataLen.toNat →
         t = { s with permStore := t.permStore, dataStore := t.dataStore, i := i, j := j, k := s.dataLen,
                      phase := .idle, err := 0x0#4, done := true })))

/-- 41_modexp.md R142, R143: in a legal state e.e and e.m are not 0, and then one square-and-multiply step, with its end,
never stops. -/
def Obligations.MxStepFollowsItsRule : Prop :=
  ∀ s : State, s.phase = .mx →
    (Inv s → s.e ≠ 0#32 ∧ s.m ≠ 0#32) ∧
    (s.e ≠ 0#32 → s.m ≠ 0#32 →
     let acc : BitVec 64 :=
       if s.e.toNat % 2 = 1 then BitVec.ofNat 64 (s.acc.toNat * s.b.toNat % s.m.toNat) else s.acc
     let b : Word := BitVec.ofNat 32 (s.b.toNat * s.b.toNat % s.m.toNat)
     let e : Word := BitVec.ofNat 32 (s.e.toNat / 2)
     (s.e.toNat / 2 ≠ 0 → engineTurn s = .next { s with acc := acc, b := b, e := e }) ∧
     (s.e.toNat / 2 = 0 →
       engineTurn s = .next { s with
         acc := acc, b := b, e := 0#32, mxResult := BitVec.ofNat 32 acc.toNat,
         phase := .idle, err := 0x0#4, done := true }))

/-- 41_modexp.md R146: a 64-bit datapath is wide enough. In every legal MX state the engine's turn gives the accumulator and
the base that 64-bit products, wrapping modulo 2^64, give when reduced modulo e.m: no product of the step wraps. -/
def Obligations.MxProductsFitTheDatapath : Prop :=
  ∀ s : State, Inv s → s.phase = .mx →
    (s.acc.toNat * s.b.toNat ≤ (2 ^ 32 - 2) ^ 2 ∧ s.b.toNat * s.b.toNat ≤ (2 ^ 32 - 2) ^ 2) ∧
    ∃ t, engineTurn s = .next t ∧
      (let b64 : BitVec 64 := s.b.setWidth 64
       let m64 : BitVec 64 := s.m.setWidth 64
       t.acc = (if s.e.getLsbD 0 then s.acc * b64 % m64 else s.acc) ∧
       t.b = (b64 * b64 % m64).setWidth 32 ∧
       t.acc.toNat < s.m.toNat ∧ t.b.toNat < s.m.toNat)

/-! ## End states of the commands

A run from a state with no event listed is engine steps only (log entry 1); host accesses between them are the subject
of `Obligations.InterleavingDoesNotChangeTheResult`. -/

/-- 40_rc4.md R110 (engine steps, end state, flags), R119, R124: from any state in which RC4_CIPHER is accepted, the
issue step and then 256 + DATALEN engine steps, BUSY all the while, leave S = S1, DATA[k] = DATA[k] xor ks[k] below
DATALEN, and nothing else changed but the completion record and the RC4 engine's registers. -/
def Obligations.CipherReachesItsEndState : Prop :=
  ∀ s : State, CipherReady s →
    ∃ u t, exec .rc4Cipher s = .next u ∧
      run (256 + s.dataLen.toNat) u = .next t ∧
      BusyFor (256 + s.dataLen.toNat) u ∧
      (let S0 := ksa (s.load .key) s.keyLen.toNat
       (∀ x : Byte, t.permAt x = prgaPerm S0 s.dataLen.toNat x) ∧
       (∀ k, t.load .data k =
         if k < s.dataLen.toNat then s.load .data k ^^^ keystream S0 k else s.load .data k)) ∧
      t = { s with permStore := t.permStore, dataStore := t.dataStore, phase := .idle, err := 0x0#4, done := true,
                   op := 0x01#8, c := 256#9, kidx := t.kidx, i := t.i, j := t.j, k := s.dataLen }

/-- 40_rc4.md R111 (engine steps, end state, flags), R119, R124: RC4_SCHEDULE leaves S = KSA(KEY, KEYLEN) after 256
engine steps, and DATA unchanged, whatever DATALEN is. -/
def Obligations.ScheduleReachesItsEndState : Prop :=
  ∀ s : State, s.phase = .idle → s.inputs = [] → s.keyLen ≠ 0#9 →
    ∃ u t, exec .rc4Schedule s = .next u ∧
      run 256 u = .next t ∧
      BusyFor 256 u ∧
      (∀ x : Byte, t.permAt x = ksa (s.load .key) s.keyLen.toNat x) ∧
      t = { s with permStore := t.permStore, phase := .idle, err := 0x0#4, done := true,
                   op := 0x02#8, c := 256#9, kidx := t.kidx, j := t.j }

/-- 40_rc4.md R112 (engine steps, end state, flags), R119, R124: RC4_GENERATE runs PRGA on the S standing at issue,
whatever KEYLEN is. -/
def Obligations.GenerateReachesItsEndState : Prop :=
  ∀ s : State, s.phase = .idle → s.inputs = [] → 1 ≤ s.dataLen.toNat → s.dataLen.toNat ≤ s.dbufSize →
    Memory.wf .perm 256 s.permStore = true →
    ∃ u t, exec .rc4Generate s = .next u ∧
      run s.dataLen.toNat u = .next t ∧
      BusyFor s.dataLen.toNat u ∧
      (∀ x : Byte, t.permAt x = prgaPerm s.permAt s.dataLen.toNat x) ∧
      (∀ k, t.load .data k =
        if k < s.dataLen.toNat then s.load .data k ^^^ keystream s.permAt k else s.load .data k) ∧
      t = { s with permStore := t.permStore, dataStore := t.dataStore, phase := .idle, err := 0x0#4, done := true,
                   op := 0x03#8, i := t.i, j := t.j, k := s.dataLen }

/-- 41_modexp.md R140 (engine steps, end state, flags), R144, R145: MODEXP takes bitlen(MX_EXP) engine steps, none with a
zero modulus, and leaves MX_RESULT = modexp(MX_BASE, MX_EXP, MX_MOD) over the integers, with the code 0x0, or 0x4 for a
zero modulus. -/
def Obligations.ModexpReachesItsEndState : Prop :=
  ∀ s : State, s.phase = .idle → s.inputs = [] →
    (let n := if s.mxMod = 0#32 then 0 else bitlen s.mxExp.toNat
     n ≤ 32 ∧
     ∃ u t, exec .modexp s = .next u ∧ run n u = .next t ∧ BusyFor n u ∧
       t.mxResult.toNat = modexpOf s.mxBase.toNat s.mxExp.toNat s.mxMod.toNat ∧
       t = { s with mxResult := t.mxResult, phase := .idle, err := if s.mxMod = 0#32 then 0x4#4 else 0x0#4,
                    done := true, acc := t.acc, b := t.b, e := t.e, m := t.m } ∧
       (s.mxMod = 0#32 → t.acc = s.acc ∧ t.b = s.b ∧ t.e = s.e ∧ t.m = s.m) ∧
       (s.mxMod ≠ 0#32 → t.e = 0#32 ∧ t.m = s.mxMod))

/-- 40_rc4.md R122, 10_state.md R30, R36: two states that agree on DATALEN, on min(KEYLEN, 256), on that many key bytes
and on DATA below DATALEN get the same S and the same DATA below DATALEN from RC4_CIPHER, whatever else differs: the S
that stood before, the key bytes above, the DATA above, the other registers. -/
def Obligations.CipherResultDependsOnlyOnItsInputs : Prop :=
  ∀ s₁ s₂ : State, CipherReady s₁ → CipherReady s₂ →
    s₁.dataLen = s₂.dataLen → keyBytesRead s₁ = keyBytesRead s₂ →
    (∀ x, x < keyBytesRead s₁ → s₁.load .key x = s₂.load .key x) →
    (∀ k, k < s₁.dataLen.toNat → s₁.load .data k = s₂.load .data k) →
    ∃ u₁ t₁ u₂ t₂,
      exec .rc4Cipher s₁ = .next u₁ ∧ run (256 + s₁.dataLen.toNat) u₁ = .next t₁ ∧
      exec .rc4Cipher s₂ = .next u₂ ∧ run (256 + s₂.dataLen.toNat) u₂ = .next t₂ ∧
      (∀ x : Byte, t₁.permAt x = t₂.permAt x) ∧
      (∀ k, k < s₁.dataLen.toNat → t₁.load .data k = t₂.load .data k)

/-- 40_rc4.md R122, 10_state.md R30, R36: the same for RC4_SCHEDULE, which reads KEY and KEYLEN alone. -/
def Obligations.ScheduleResultDependsOnlyOnItsInputs : Prop :=
  ∀ s₁ s₂ : State, s₁.phase = .idle → s₁.inputs = [] → s₁.keyLen ≠ 0#9 →
    s₂.phase = .idle → s₂.inputs = [] → s₂.keyLen ≠ 0#9 →
    keyBytesRead s₁ = keyBytesRead s₂ →
    (∀ x, x < keyBytesRead s₁ → s₁.load .key x = s₂.load .key x) →
    ∃ u₁ t₁ u₂ t₂,
      exec .rc4Schedule s₁ = .next u₁ ∧ run 256 u₁ = .next t₁ ∧
      exec .rc4Schedule s₂ = .next u₂ ∧ run 256 u₂ = .next t₂ ∧
      (∀ x : Byte, t₁.permAt x = t₂.permAt x)

/-- 40_rc4.md R121: RC4_CIPHER twice in a row gives DATA back. -/
def Obligations.CipherTwiceRestoresTheData : Prop :=
  ∀ s : State, CipherReady s →
    ∃ u t v w,
      exec .rc4Cipher s = .next u ∧ run (256 + s.dataLen.toNat) u = .next t ∧
      exec .rc4Cipher t = .next v ∧ run (256 + s.dataLen.toNat) v = .next w ∧
      ∀ x, w.load .data x = s.load .data x

/-- 40_rc4.md R123: RC4_SCHEDULE followed by RC4_GENERATE leaves the S and the DATA of one RC4_CIPHER. -/
def Obligations.ScheduleThenGenerateEqualsCipher : Prop :=
  ∀ s : State, CipherReady s →
    ∃ u t a b c d,
      exec .rc4Cipher s = .next u ∧ run (256 + s.dataLen.toNat) u = .next t ∧
      exec .rc4Schedule s = .next a ∧ run 256 a = .next b ∧ b.done = true ∧
      exec .rc4Generate b = .next c ∧ run s.dataLen.toNat c = .next d ∧ d.done = true ∧
      (∀ x : Byte, t.permAt x = d.permAt x) ∧ (∀ x, t.load .data x = d.load .data x)

/-! ## Reset, legal states, termination -/

/-- 10_state.md R44, 70_reset_and_hazards.md R190: the values after a reset step, from any state (a running command is
abandoned) and whatever access is presented, and in the state the machine starts from (with the parameters of log entry
5); DBUF_SIZE stays. For KEY and DATA, which R44 leaves unspecified, it says that they hold the free values of the
reset's number: that form is the model's (log entry 3, DESIGN CHOICE), and nothing is said of the values. -/
def Obligations.ResetGivesTheSpecifiedValues : Prop :=
  HasResetValues State.reset ∧
  ∀ (s : State) (p : Option Access),
    ∃ t, step (s.resetting p) = .next t ∧ HasResetValues t ∧ t.cfg = s.cfg

/-- 70_reset_and_hazards.md R192, R191: an access presented in a reset cycle changes no state, and is answered with
rdata = 0 and resp_err = 0 (a write's response carries no rdata here, log entry 14); the epoch counts the resets, so that
KEY and DATA hold a new draw (log entry 3), and the events to come stay. -/
def Obligations.AccessDuringResetIsIgnored : Prop :=
  ∀ (s : State) (off : Offset) (v : Word),
    ∃ t, step (s.resetting none) = .next t ∧ t.epoch = s.epoch + 1 ∧ t.inputs = s.inputs ∧
      step (s.resetting (some (.read off))) = .next { t with resp := some (.read 0#32 false) } ∧
      step (s.resetting (some (.write off v))) = .next { t with resp := some (.write false) }

/-- The state after reset is legal, for any parameters and any events to come. -/
def Obligations.ResetStateIsLegal : Prop :=
  Inv State.reset ∧ ∀ (g : Config) (evs : List Event), Inv { State.afterReset g with inputs := evs }

/-- Every step keeps the legal states: S a bijection, the completion code one of 0 to 5, the stores canonical, the
engine's position as the rules say it always is. -/
def Obligations.StepKeepsLegalStates : Prop :=
  ∀ s t : State, Inv s → step s = .next t → Inv t

/-- 60_exceptions.md R164 ("No engine step can fail"), 40_rc4.md R115, R118, 41_modexp.md R142: no run from a legal
state ends in a fault or a refusal. -/
def Obligations.NoRunFromALegalStateStops : Prop :=
  ∀ s : State, Inv s → SafeFrom s

/-- 10_state.md R42: each value appears exactly once in S, in every state of every run from reset, whatever the host
does; and any step keeps it from any state whose S store is in canonical form. -/
def Obligations.PermutationIsAlwaysABijection : Prop :=
  (∀ (g : Config) (evs : List Event) (n : Nat) (t : State),
    run n { State.afterReset g with inputs := evs } = .next t → PermBijective t) ∧
  (∀ s t : State, Memory.wf .perm 256 s.permStore = true → PermBijective s → step s = .next t → PermBijective t)

/-- 10_state.md R34: DBUF_SIZE and the other parameters are constant, and CFG reads as DBUF_SIZE in every state. -/
def Obligations.ConfigurationIsConstant : Prop :=
  (∀ s t : State, step s = .next t → t.cfg = s.cfg) ∧
  (∀ s : State, ReadsAs s 0x00024#17 (BitVec.ofNat 32 s.dbufSize))

/-- 70_reset_and_hazards.md R205, 40_rc4.md R124, 41_modexp.md R144: the running command takes a bounded number of
engine steps, each of which brings its end one step nearer, and no host access changes that number. -/
def Obligations.EachEngineStepBringsTheEndNearer : Prop :=
  ∀ s : State, Inv s → s.busy = true →
    stepsLeft s ≤ 256 + s.dbufSize ∧ (s.phase = .mx → stepsLeft s ≤ 32) ∧
    (∃ t, engineTurn s = .next t ∧ stepsLeft t + 1 = stepsLeft s ∧ (stepsLeft t = 0 ↔ t.busy = false)) ∧
    (∀ a : Access, ∃ t, step (s.presenting a) = .next t ∧ stepsLeft t = stepsLeft s ∧ t.busy = true)

/-- 20_memory.md R76, R79, 70_reset_and_hazards.md R200: while BUSY = 1 no host access changes anything but DONE, OVR,
CTRL.IE, the response and the model's draw counter. -/
def Obligations.HostCannotDisturbARunningCommand : Prop :=
  ∀ (s : State) (a : Access), s.busy = true →
    ∃ t, step (s.presenting a) = .next t ∧
      t = { s with done := t.done, ovr := t.ovr, ie := t.ie, resp := t.resp, draws := t.draws }

/-- 70_reset_and_hazards.md R205, 00_scope.md R13: however the host's accesses fall between the engine steps, the
running command ends after its number of engine steps with the result it would have had alone (95_test_vectors.md
V44, P5). -/
def Obligations.InterleavingDoesNotChangeTheResult : Prop :=
  ∀ (s : State) (evs rest : List Event), Inv s → s.busy = true →
    s.inputs = evs ++ Event.engine :: rest → (∀ p, Event.reset p ∉ evs) → evs.count .engine + 1 = stepsLeft s →
    ∃ t u, run (evs.length + 1) s = .next t ∧
      run (stepsLeft s) { s with inputs := [] } = .next u ∧
      t.busy = false ∧ t.done = true ∧ t.err = 0x0#4 ∧ t.inputs = rest ∧
      t = { u with ovr := t.ovr, ie := t.ie, resp := t.resp, draws := t.draws, inputs := t.inputs }

/-- 70_reset_and_hazards.md R205: no run from a legal state stays busy forever: whatever events are listed, after some
number of steps all of them have happened and BUSY is 0. That the list is finite is the model's form of the rule's
fairness (log entry 1). -/
def Obligations.EveryRunComesToRest : Prop :=
  ∀ s : State, Inv s → ∃ n t, run n s = .next t ∧ t.busy = false ∧ t.inputs = []

/-! ## The bus -/

/-- 20_memory.md R68, 10_state.md R23, R24, R29 to R32, R34: the reads that are exact whatever BUSY is. -/
def Obligations.ExactReadsReturnTheRegisters : Prop :=
  ∀ s : State,
    ReadsAs s 0x00000#17 0#32 ∧
    ReadsAs s 0x00004#17
      (BitVec.ofNat 32 (256 * s.err.toNat + 4 * s.ovr.toNat + 2 * s.done.toNat + (if s.phase = .idle then 0 else 1))) ∧
    ReadsAs s 0x00008#17 (BitVec.ofNat 32 s.ie.toNat) ∧
    ReadsAs s 0x0000C#17 (BitVec.ofNat 32 s.keyLen.toNat) ∧
    ReadsAs s 0x00010#17 (BitVec.ofNat 32 s.dataLen.toNat) ∧
    ReadsAs s 0x00014#17 s.mxBase ∧ ReadsAs s 0x00018#17 s.mxExp ∧ ReadsAs s 0x0001C#17 s.mxMod ∧
    ReadsAs s 0x00024#17 (BitVec.ofNat 32 s.dbufSize) ∧
    (∀ w, w < 64 → ReadsAs s (BitVec.ofNat 17 (0x00100 + 4 * w))
      (s.load .key (4 * w + 3) ++ s.load .key (4 * w + 2) ++ s.load .key (4 * w + 1) ++ s.load .key (4 * w)))

/-- 20_memory.md R64, R68: MX_RESULT, the S window and the DATA window, while BUSY = 0. -/
def Obligations.ResultReadsAreExactWhileIdle : Prop :=
  ∀ s : State, s.busy = false →
    ReadsAs s 0x00020#17 s.mxResult ∧
    (∀ w, w < 64 → ReadsAs s (BitVec.ofNat 17 (0x00200 + 4 * w))
      (s.load .perm (4 * w + 3) ++ s.load .perm (4 * w + 2) ++ s.load .perm (4 * w + 1) ++ s.load .perm (4 * w))) ∧
    (∀ w, 4 * w < s.dbufSize → ReadsAs s (BitVec.ofNat 17 (0x10000 + 4 * w))
      (s.load .data (4 * w + 3) ++ s.load .data (4 * w + 2) ++ s.load .data (4 * w + 1) ++ s.load .data (4 * w)))

/-- 70_reset_and_hazards.md R201: while BUSY = 1 the same reads answer OK with a free value, the next draw; nothing
else changes. -/
def Obligations.ResultReadsWhileBusyAreFreeValues : Prop :=
  ∀ (s : State) (a : Nat), s.busy = true →
    (a = 0x00020 ∨ (∃ w, w < 64 ∧ a = 0x00200 + 4 * w) ∨ (∃ w, 4 * w < s.dbufSize ∧ a = 0x10000 + 4 * w)) →
    step (s.presenting (.read (BitVec.ofNat 17 a))) =
      .next { s with resp := some (.read (Config.busyRead s.draws) false), draws := s.draws + 1 }

/-- 20_memory.md R70, R68: no read, at any offset and in any state, changes any state of the block. -/
def Obligations.ReadsHaveNoSideEffect : Prop :=
  ∀ (s : State) (off : Offset),
    ∃ t, step (s.presenting (.read off)) = .next t ∧ t = { s with resp := t.resp, draws := t.draws }

/-- 10_state.md R24, R29, 70_reset_and_hazards.md R200: a STATUS write clears DONE and OVR where its bits 1 and 2 are 1,
a CTRL write stores bit 0, whatever BUSY is, and nothing else changes. -/
def Obligations.StatusAndCtrlWritesAlwaysTakeEffect : Prop :=
  ∀ (s : State) (v : Word),
    step (s.presenting (.write 0x00004#17 v)) = .next { s with
      done := if v.toNat / 2 % 2 = 1 then false else s.done
      ovr := if v.toNat / 4 % 2 = 1 then false else s.ovr
      resp := some (.write false) } ∧
    step (s.presenting (.write 0x00008#17 v)) = .next { s with
      ie := decide (v.toNat % 2 = 1), resp := some (.write false) }

/-- 10_state.md R30, R31, R32, R35: what a write of the length and MODEXP input registers stores while BUSY = 0. -/
def Obligations.IdleRegisterWritesStoreTheirBits : Prop :=
  ∀ (s : State) (v : Word), s.busy = false →
    step (s.presenting (.write 0x0000C#17 v)) =
      .next { s with keyLen := BitVec.ofNat 9 (v.toNat % 512), resp := some (.write false) } ∧
    step (s.presenting (.write 0x00010#17 v)) =
      .next { s with dataLen := BitVec.ofNat 17 (v.toNat % 131072), resp := some (.write false) } ∧
    step (s.presenting (.write 0x00014#17 v)) = .next { s with mxBase := v, resp := some (.write false) } ∧
    step (s.presenting (.write 0x00018#17 v)) = .next { s with mxExp := v, resp := some (.write false) } ∧
    step (s.presenting (.write 0x0001C#17 v)) = .next { s with mxMod := v, resp := some (.write false) }

/-- 20_memory.md R64, R69: a word written to the KEY or DATA window while BUSY = 0 stores its four bytes, the lowest
bits at the lowest index; every other byte and every other field is unchanged. -/
def Obligations.WindowWritesStoreFourBytes : Prop :=
  ∀ (s : State) (v : Word) (w : Nat), s.busy = false →
    (w < 64 → ∃ t, step (s.presenting (.write (BitVec.ofNat 17 (0x00100 + 4 * w)) v)) = .next t ∧
      t = { s with keyStore := t.keyStore, resp := some (.write false) } ∧
      (∀ n, n < 4 → (t.load .key (4 * w + n)).toNat = v.toNat / 2 ^ (8 * n) % 256) ∧
      (∀ x, x / 4 ≠ w → t.load .key x = s.load .key x)) ∧
    (4 * w < s.dbufSize → ∃ t, step (s.presenting (.write (BitVec.ofNat 17 (0x10000 + 4 * w)) v)) = .next t ∧
      t = { s with dataStore := t.dataStore, resp := some (.write false) } ∧
      (∀ n, n < 4 → (t.load .data (4 * w + n)).toNat = v.toNat / 2 ^ (8 * n) % 256) ∧
      (∀ x, x / 4 ≠ w → t.load .data x = s.load .data x))

/-- 20_memory.md R64, R75: a word written to the KEY or DATA window while BUSY = 0 reads back as it was written. -/
def Obligations.WindowWordsReadBackAsWritten : Prop :=
  ∀ (s : State) (v : Word) (w a : Nat), s.busy = false →
    (w < 64 ∧ a = 0x00100 + 4 * w ∨ 4 * w < s.dbufSize ∧ a = 0x10000 + 4 * w) →
    ∃ t, step (s.presenting (.write (BitVec.ofNat 17 a) v)) = .next t ∧ ReadsAs t (BitVec.ofNat 17 a) v

/-- 70_reset_and_hazards.md R200: while BUSY = 1 a write to a gated location changes nothing but OVR, and is answered
with OK. -/
def Obligations.GatedWritesWhileBusyOnlySetOvr : Prop :=
  ∀ (s : State) (a : Nat) (v : Word), s.busy = true → GatedOffset s.dbufSize a →
    step (s.presenting (.write (BitVec.ofNat 17 a) v)) = .next { s with ovr := true, resp := some (.write false) }

/-- 20_memory.md R66: a write to MX_RESULT, CFG or a word of the S window changes no state and is answered with OK,
whatever BUSY is; a STATUS write leaves every field but DONE and OVR. -/
def Obligations.ReadOnlyWritesAreIgnored : Prop :=
  ∀ (s : State) (a : Nat) (v : Word), (a = 0x00020 ∨ a = 0x00024 ∨ ∃ w, w < 64 ∧ a = 0x00200 + 4 * w) →
    step (s.presenting (.write (BitVec.ofNat 17 a) v)) = .next { s with resp := some (.write false) } ∧
    ∃ t, step (s.presenting (.write 0x00004#17 v)) = .next t ∧
      t = { s with done := t.done, ovr := t.ovr, resp := some (.write false) }

/-- 20_memory.md R63: a misaligned access reads 0 or changes nothing, answers ERR, and never sets OVR, at any offset
and whatever BUSY is. -/
def Obligations.MisalignedAccessesAnswerErr : Prop :=
  ∀ (s : State) (off : Offset) (v : Word), off.toNat % 4 ≠ 0 →
    step (s.presenting (.read off)) = .next { s with resp := some (.read 0#32 true) } ∧
    step (s.presenting (.write off v)) = .next { s with resp := some (.write true) }

/-- 20_memory.md R67: an aligned access to an unmapped offset reads 0 or changes nothing, answers ERR, and never sets
OVR. -/
def Obligations.UnmappedAccessesAnswerErr : Prop :=
  ∀ (s : State) (off : Offset) (v : Word), off.toNat % 4 = 0 → UnmappedOffset s.dbufSize off.toNat →
    step (s.presenting (.read off)) = .next { s with resp := some (.read 0#32 true) } ∧
    step (s.presenting (.write off v)) = .next { s with resp := some (.write true) }

/-! ## Rules about the whole machine -/

/-- 10_state.md R26: DONE is cleared only by a STATUS write with bit 1 set or by reset; it is set only together with a
completion; and the end of a running command, unless a reset abandons it, sets it. -/
def Obligations.DoneChangesOnlyAsItsRuleSays : Prop :=
  ∀ s t : State, step s = .next t →
    (s.done = true → t.done = false → ResetNext s ∨ ∃ v, WriteNext s 0x00004 v ∧ v.getLsbD 1 = true) ∧
    (s.done = false → t.done = true → t.phase = .idle ∧ t.err.toNat ≤ 5) ∧
    (s.busy = true → t.busy = false → ResetNext s ∨ (t.done = true ∧ t.err = 0x0#4))

/-- 10_state.md R27: OVR is set only by a write that R200 ignores because BUSY = 1, and is cleared only by a STATUS
write with bit 2 set or by reset. -/
def Obligations.OvrChangesOnlyAsItsRuleSays : Prop :=
  ∀ s t : State, step s = .next t →
    (s.ovr = false → t.ovr = true → s.busy = true ∧ ∃ a v, WriteNext s a v ∧ GatedOffset s.dbufSize a) ∧
    (s.ovr = true → t.ovr = false → ResetNext s ∨ ∃ v, WriteNext s 0x00004 v ∧ v.getLsbD 2 = true)

/-- 10_state.md R28: ERR is written only by a completion, which also sets DONE and leaves BUSY = 0, or by reset; the
codes a completion writes are 0x0 to 0x5. -/
def Obligations.ErrIsWrittenOnlyByACompletion : Prop :=
  ∀ s t : State, step s = .next t → t.err ≠ s.err →
    ResetNext s ∨ (t.phase = .idle ∧ t.done = true ∧ t.err.toNat ≤ 5)

/-- 10_state.md R33: only a MODEXP completion writes MX_RESULT: the last MX step, or the issue step of MODEXP; and
reset. -/
def Obligations.ResultIsWrittenOnlyByModexp : Prop :=
  ∀ s t : State, step s = .next t → t.mxResult ≠ s.mxResult →
    ResetNext s ∨
    (t.phase = .idle ∧ t.done = true ∧
      (s.phase = .mx ∧ EngineNext s ∨ s.phase = .idle ∧ WriteNext s 0x00000 0x00000010#32))

/-- 10_state.md R36, R37, R38: who writes the stores. KEY: the host through the KEY window while BUSY = 0. DATA: the host
through the DATA window while BUSY = 0, or a PRGA step at e.k < DATALEN. S: the start of RC4_CIPHER or RC4_SCHEDULE, or
a KSA or PRGA step. And reset. -/
def Obligations.StoresAreWrittenOnlyAsTheirRulesSay : Prop :=
  ∀ (s t : State) (x : Nat), step s = .next t → ¬ResetNext s →
    (t.load .key x ≠ s.load .key x →
      s.busy = false ∧ x < 256 ∧ ∃ v, WriteNext s (0x00100 + 4 * (x / 4)) v) ∧
    (t.load .data x ≠ s.load .data x →
      (s.busy = false ∧ x < s.dbufSize ∧ ∃ v, WriteNext s (0x10000 + 4 * (x / 4)) v) ∨
      (s.phase = .prga ∧ EngineNext s ∧ x = s.k.toNat ∧ x < s.dataLen.toNat)) ∧
    (t.load .perm x ≠ s.load .perm x →
      (s.busy = false ∧ (WriteNext s 0x00000 0x00000001#32 ∨ WriteNext s 0x00000 0x00000002#32)) ∨
      ((s.phase = .ksa ∨ s.phase = .prga) ∧ EngineNext s ∧ x < 256))

/-- 41_modexp.md R147, 00_scope.md R6: neither engine writes or reads the other's state: RC4 commands and RC4 engine
steps leave the MODEXP side unchanged and give the same RC4 side from the same RC4 side, and the other way round. -/
def Obligations.TheTwoEnginesShareNoData : Prop :=
  (∀ s t : State, (s.phase = .ksa ∨ s.phase = .prga) → engineTurn s = .next t → SameMx s t) ∧
  (∀ s t : State, s.phase = .mx → engineTurn s = .next t → SameRc4 s t) ∧
  (∀ (s t : State) (i : Instr), i ≠ .modexp → exec i s = .next t → SameMx s t) ∧
  (∀ s t : State, exec .modexp s = .next t → SameRc4 s t) ∧
  (∀ s₁ s₂ t₁ t₂ : State, (s₁.phase = .ksa ∨ s₁.phase = .prga) → s₂.phase = s₁.phase → SameRc4 s₁ s₂ →
    engineTurn s₁ = .next t₁ → engineTurn s₂ = .next t₂ → SameRc4 t₁ t₂ ∧ t₂.phase = t₁.phase) ∧
  (∀ s₁ s₂ t₁ t₂ : State, s₁.phase = .mx → s₂.phase = .mx → SameMx s₁ s₂ →
    engineTurn s₁ = .next t₁ → engineTurn s₂ = .next t₂ → SameMx t₁ t₂ ∧ t₂.phase = t₁.phase) ∧
  (∀ (s₁ s₂ t₁ t₂ : State) (i : Instr), i ≠ .modexp → s₂.phase = s₁.phase → SameRc4 s₁ s₂ →
    exec i s₁ = .next t₁ → exec i s₂ = .next t₂ → SameRc4 t₁ t₂ ∧ t₂.phase = t₁.phase) ∧
  (∀ s₁ s₂ t₁ t₂ : State, s₂.phase = s₁.phase → SameMx s₁ s₂ →
    exec .modexp s₁ = .next t₁ → exec .modexp s₂ = .next t₂ → SameMx t₁ t₂ ∧ t₂.phase = t₁.phase)

/-- 60_exceptions.md R165: irq is DONE and IE, as the host reads them in STATUS bit 1 and CTRL bit 0. -/
def Obligations.IrqIsDoneAndEnable : Prop :=
  ∀ s : State, ∃ status ctrl : Word,
    ReadsAs s 0x00004#17 status ∧ ReadsAs s 0x00008#17 ctrl ∧ s.irq = (status.getLsbD 1 && ctrl.getLsbD 0)
end

