-- ==== Sys2Proof/Laws/Memory.lean ====
section
/-! SUPPORT. The laws of a store's cells: read after write, and that a write keeps the canonical form. -/

namespace Sys2Proof.Machine

theorem Memory.lookup_put_other {st : Store} {x y : Nat} {v : Byte} {rest : Memory} (h : y ≠ x) :
    (Memory.put st x v rest).lookup y = rest.lookup y := by
  unfold Memory.put
  split
  · rfl
  · simp [Memory.lookup, Ne.symm h]

/-- A write leaves every other index's cell as it was. -/
theorem Memory.lookup_write_other {st : Store} {x y : Nat} {v : Byte} (m : Memory) (h : y ≠ x) :
    (Memory.write st x v m).lookup y = m.lookup y := by
  induction m with
  | nil => exact Memory.lookup_put_other h
  | cons cell rest ih =>
    obtain ⟨a, w⟩ := cell
    unfold Memory.write
    split
    · exact Memory.lookup_put_other h
    · split
      · next hax => simp [Memory.lookup_put_other h, Memory.lookup, ← hax, Ne.symm h]
      · simp [Memory.lookup, ih]

/-- A write leaves every other index as it read before. -/
theorem Memory.read_write_other {epoch : Nat} {st : Store} {x y : Nat} {v : Byte} (m : Memory) (h : y ≠ x) :
    (Memory.write st x v m).read epoch st y = m.read epoch st y := by
  simp [Memory.read, Memory.lookup_write_other m h]

/-- Below a canonical tail's lowest index nothing is listed. -/
theorem Memory.lookup_below {st : Store} {hi lo x : Nat} {m : Memory} (hm : Memory.wfFrom st hi lo m = true)
    (h : x < lo) : m.lookup x = none := by
  induction m generalizing lo with
  | nil => rfl
  | cons cell rest ih =>
    obtain ⟨a, w⟩ := cell
    simp only [Memory.wfFrom, Bool.and_eq_true, decide_eq_true_eq] at hm
    have hax : a ≠ x := by omega
    simp [Memory.lookup, hax, ih hm.2 (by omega)]

theorem Memory.read_put_same {epoch : Nat} {st : Store} {x : Nat} {v : Byte} {rest : Memory}
    (hr : rest.lookup x = none) : (Memory.put st x v rest).read epoch st x = v := by
  unfold Memory.put
  split
  · next hv => simp [Memory.read, hr, unlisted, hv]
  · simp [Memory.read, Memory.lookup]

theorem Memory.read_write_same_from {epoch : Nat} {st : Store} {hi lo x : Nat} {v : Byte} {m : Memory}
    (hm : Memory.wfFrom st hi lo m = true) : (Memory.write st x v m).read epoch st x = v := by
  induction m generalizing lo with
  | nil => exact Memory.read_put_same rfl
  | cons cell rest ih =>
    obtain ⟨a, w⟩ := cell
    simp only [Memory.wfFrom, Bool.and_eq_true, decide_eq_true_eq] at hm
    unfold Memory.write
    split
    · next hxa =>
      have hax : a ≠ x := by omega
      refine Memory.read_put_same ?_
      simp [Memory.lookup, hax, Memory.lookup_below hm.2 (by omega : x < a + 1)]
    · split
      · next hxa => exact Memory.read_put_same (Memory.lookup_below hm.2 (by omega))
      · next h1 h2 =>
        have hax : a ≠ x := fun h => h2 h.symm
        have := ih hm.2
        simpa [Memory.read, Memory.lookup, hax] using this

/-- Read after write to the same index, of a store in canonical form. -/
theorem Memory.read_write_same {epoch : Nat} {st : Store} {hi x : Nat} {v : Byte} {m : Memory}
    (hm : Memory.wf st hi m = true) : (Memory.write st x v m).read epoch st x = v :=
  Memory.read_write_same_from hm

/-- Where an unlisted index is not known (KEY and DATA), read after write needs no canonical form. -/
theorem Memory.read_write_same_unknown {epoch : Nat} {st : Store} {x : Nat} {v : Byte} (m : Memory)
    (hk : ∀ a, unlistedKnown st a = none) : (Memory.write st x v m).read epoch st x = v := by
  have hput : ∀ rest : Memory, (Memory.put st x v rest).read epoch st x = v := by
    intro rest
    simp [Memory.put, hk, Memory.read, Memory.lookup]
  induction m with
  | nil => exact hput []
  | cons cell rest ih =>
    obtain ⟨a, w⟩ := cell
    unfold Memory.write
    split
    · exact hput _
    · split
      · exact hput _
      · next h2 =>
        have hax : a ≠ x := fun h => h2 h.symm
        simpa [Memory.read, Memory.lookup, hax] using ih

theorem Memory.wfFrom_mono {st : Store} {hi lo lo' : Nat} {m : Memory} (h : lo' ≤ lo)
    (hm : Memory.wfFrom st hi lo m = true) : Memory.wfFrom st hi lo' m = true := by
  cases m with
  | nil => rfl
  | cons cell rest =>
    obtain ⟨a, w⟩ := cell
    simp only [Memory.wfFrom, Bool.and_eq_true, decide_eq_true_eq] at hm ⊢
    exact ⟨⟨⟨by omega, hm.1.1.2⟩, hm.1.2⟩, hm.2⟩

theorem Memory.wfFrom_put {st : Store} {hi lo x : Nat} {v : Byte} {rest : Memory} (hlo : lo ≤ x) (hx : x < hi)
    (hr : Memory.wfFrom st hi (x + 1) rest = true) : Memory.wfFrom st hi lo (Memory.put st x v rest) = true := by
  unfold Memory.put
  split
  · exact Memory.wfFrom_mono (by omega) hr
  · next hv => simp [Memory.wfFrom, hlo, hx, hv, hr]

theorem Memory.wfFrom_write {st : Store} {hi lo x : Nat} {v : Byte} {m : Memory} (hlo : lo ≤ x) (hx : x < hi)
    (hm : Memory.wfFrom st hi lo m = true) : Memory.wfFrom st hi lo (Memory.write st x v m) = true := by
  induction m generalizing lo with
  | nil => exact Memory.wfFrom_put hlo hx rfl
  | cons cell rest ih =>
    obtain ⟨a, w⟩ := cell
    have hm' := hm
    simp only [Memory.wfFrom, Bool.and_eq_true, decide_eq_true_eq] at hm
    obtain ⟨⟨⟨h1, h2⟩, h3⟩, h4⟩ := hm
    unfold Memory.write
    split
    · next hxa =>
      refine Memory.wfFrom_put hlo hx ?_
      simp only [Memory.wfFrom, Bool.and_eq_true, decide_eq_true_eq]
      exact ⟨⟨⟨by omega, h2⟩, h3⟩, h4⟩
    · split
      · next hxa => exact Memory.wfFrom_put hlo hx (by simpa [hxa] using h4)
      · simp only [Memory.wfFrom, Bool.and_eq_true, decide_eq_true_eq]
        exact ⟨⟨⟨h1, h2⟩, h3⟩, ih (by omega) h4⟩

/-- A write inside the store keeps the canonical form. -/
theorem Memory.wf_write {st : Store} {hi x : Nat} {v : Byte} {m : Memory} (hx : x < hi)
    (hm : Memory.wf st hi m = true) : Memory.wf st hi (Memory.write st x v m) = true :=
  Memory.wfFrom_write (Nat.zero_le x) hx hm

/-- An empty store is canonical. -/
@[simp] theorem Memory.wf_nil (st : Store) (hi : Nat) : Memory.wf st hi [] = true := rfl

/-- An empty store reads as its unlisted bytes. -/
@[simp] theorem Memory.read_nil (epoch : Nat) (st : Store) (x : Nat) : Memory.read epoch st [] x = unlisted epoch st x :=
  rfl

/-- An unlisted index of S holds the index (10_state.md R44). -/
@[simp] theorem unlisted_perm (epoch x : Nat) : unlisted epoch .perm x = BitVec.ofNat 8 x := rfl

end Sys2Proof.Machine
end

