-- ==== Sys2Proof/Laws/State.lean ====
section
/-! SUPPORT. One lemma per field per update: what each shared update of the state leaves in each field. -/

namespace Sys2Proof.Machine

variable (s : State) (st : Store) (x w : Nat) (v : Byte) (word : Word) (p q : Byte) (code : Code) (err : Bool)

@[simp] theorem storeByte_cfg : (storeByte st x v s).cfg = s.cfg := by cases st <;> rfl
@[simp] theorem storeByte_done : (storeByte st x v s).done = s.done := by cases st <;> rfl
@[simp] theorem storeByte_ovr : (storeByte st x v s).ovr = s.ovr := by cases st <;> rfl
@[simp] theorem storeByte_err : (storeByte st x v s).err = s.err := by cases st <;> rfl
@[simp] theorem storeByte_ie : (storeByte st x v s).ie = s.ie := by cases st <;> rfl
@[simp] theorem storeByte_keyLen : (storeByte st x v s).keyLen = s.keyLen := by cases st <;> rfl
@[simp] theorem storeByte_dataLen : (storeByte st x v s).dataLen = s.dataLen := by cases st <;> rfl
@[simp] theorem storeByte_mxBase : (storeByte st x v s).mxBase = s.mxBase := by cases st <;> rfl
@[simp] theorem storeByte_mxExp : (storeByte st x v s).mxExp = s.mxExp := by cases st <;> rfl
@[simp] theorem storeByte_mxMod : (storeByte st x v s).mxMod = s.mxMod := by cases st <;> rfl
@[simp] theorem storeByte_mxResult : (storeByte st x v s).mxResult = s.mxResult := by cases st <;> rfl
@[simp] theorem storeByte_phase : (storeByte st x v s).phase = s.phase := by cases st <;> rfl
@[simp] theorem storeByte_op : (storeByte st x v s).op = s.op := by cases st <;> rfl
@[simp] theorem storeByte_c : (storeByte st x v s).c = s.c := by cases st <;> rfl
@[simp] theorem storeByte_kidx : (storeByte st x v s).kidx = s.kidx := by cases st <;> rfl
@[simp] theorem storeByte_i : (storeByte st x v s).i = s.i := by cases st <;> rfl
@[simp] theorem storeByte_j : (storeByte st x v s).j = s.j := by cases st <;> rfl
@[simp] theorem storeByte_k : (storeByte st x v s).k = s.k := by cases st <;> rfl
@[simp] theorem storeByte_acc : (storeByte st x v s).acc = s.acc := by cases st <;> rfl
@[simp] theorem storeByte_b : (storeByte st x v s).b = s.b := by cases st <;> rfl
@[simp] theorem storeByte_e : (storeByte st x v s).e = s.e := by cases st <;> rfl
@[simp] theorem storeByte_m : (storeByte st x v s).m = s.m := by cases st <;> rfl
@[simp] theorem storeByte_resp : (storeByte st x v s).resp = s.resp := by cases st <;> rfl
@[simp] theorem storeByte_epoch : (storeByte st x v s).epoch = s.epoch := by cases st <;> rfl
@[simp] theorem storeByte_draws : (storeByte st x v s).draws = s.draws := by cases st <;> rfl
@[simp] theorem storeByte_inputs : (storeByte st x v s).inputs = s.inputs := by cases st <;> rfl

@[simp] theorem swapPerm_cfg : (swapPerm p q s).cfg = s.cfg := rfl
@[simp] theorem swapPerm_done : (swapPerm p q s).done = s.done := rfl
@[simp] theorem swapPerm_ovr : (swapPerm p q s).ovr = s.ovr := rfl
@[simp] theorem swapPerm_err : (swapPerm p q s).err = s.err := rfl
@[simp] theorem swapPerm_ie : (swapPerm p q s).ie = s.ie := rfl
@[simp] theorem swapPerm_keyLen : (swapPerm p q s).keyLen = s.keyLen := rfl
@[simp] theorem swapPerm_dataLen : (swapPerm p q s).dataLen = s.dataLen := rfl
@[simp] theorem swapPerm_mxBase : (swapPerm p q s).mxBase = s.mxBase := rfl
@[simp] theorem swapPerm_mxExp : (swapPerm p q s).mxExp = s.mxExp := rfl
@[simp] theorem swapPerm_mxMod : (swapPerm p q s).mxMod = s.mxMod := rfl
@[simp] theorem swapPerm_mxResult : (swapPerm p q s).mxResult = s.mxResult := rfl
@[simp] theorem swapPerm_keyStore : (swapPerm p q s).keyStore = s.keyStore := rfl
@[simp] theorem swapPerm_dataStore : (swapPerm p q s).dataStore = s.dataStore := rfl
@[simp] theorem swapPerm_phase : (swapPerm p q s).phase = s.phase := rfl
@[simp] theorem swapPerm_op : (swapPerm p q s).op = s.op := rfl
@[simp] theorem swapPerm_c : (swapPerm p q s).c = s.c := rfl
@[simp] theorem swapPerm_kidx : (swapPerm p q s).kidx = s.kidx := rfl
@[simp] theorem swapPerm_i : (swapPerm p q s).i = s.i := rfl
@[simp] theorem swapPerm_j : (swapPerm p q s).j = s.j := rfl
@[simp] theorem swapPerm_k : (swapPerm p q s).k = s.k := rfl
@[simp] theorem swapPerm_acc : (swapPerm p q s).acc = s.acc := rfl
@[simp] theorem swapPerm_b : (swapPerm p q s).b = s.b := rfl
@[simp] theorem swapPerm_e : (swapPerm p q s).e = s.e := rfl
@[simp] theorem swapPerm_m : (swapPerm p q s).m = s.m := rfl
@[simp] theorem swapPerm_resp : (swapPerm p q s).resp = s.resp := rfl
@[simp] theorem swapPerm_epoch : (swapPerm p q s).epoch = s.epoch := rfl
@[simp] theorem swapPerm_draws : (swapPerm p q s).draws = s.draws := rfl
@[simp] theorem swapPerm_inputs : (swapPerm p q s).inputs = s.inputs := rfl

@[simp] theorem storeWord_cfg : (storeWord st w word s).cfg = s.cfg := by simp [storeWord]
@[simp] theorem storeWord_done : (storeWord st w word s).done = s.done := by simp [storeWord]
@[simp] theorem storeWord_ovr : (storeWord st w word s).ovr = s.ovr := by simp [storeWord]
@[simp] theorem storeWord_err : (storeWord st w word s).err = s.err := by simp [storeWord]
@[simp] theorem storeWord_ie : (storeWord st w word s).ie = s.ie := by simp [storeWord]
@[simp] theorem storeWord_keyLen : (storeWord st w word s).keyLen = s.keyLen := by simp [storeWord]
@[simp] theorem storeWord_dataLen : (storeWord st w word s).dataLen = s.dataLen := by simp [storeWord]
@[simp] theorem storeWord_mxBase : (storeWord st w word s).mxBase = s.mxBase := by simp [storeWord]
@[simp] theorem storeWord_mxExp : (storeWord st w word s).mxExp = s.mxExp := by simp [storeWord]
@[simp] theorem storeWord_mxMod : (storeWord st w word s).mxMod = s.mxMod := by simp [storeWord]
@[simp] theorem storeWord_mxResult : (storeWord st w word s).mxResult = s.mxResult := by simp [storeWord]
@[simp] theorem storeWord_phase : (storeWord st w word s).phase = s.phase := by simp [storeWord]
@[simp] theorem storeWord_op : (storeWord st w word s).op = s.op := by simp [storeWord]
@[simp] theorem storeWord_c : (storeWord st w word s).c = s.c := by simp [storeWord]
@[simp] theorem storeWord_kidx : (storeWord st w word s).kidx = s.kidx := by simp [storeWord]
@[simp] theorem storeWord_i : (storeWord st w word s).i = s.i := by simp [storeWord]
@[simp] theorem storeWord_j : (storeWord st w word s).j = s.j := by simp [storeWord]
@[simp] theorem storeWord_k : (storeWord st w word s).k = s.k := by simp [storeWord]
@[simp] theorem storeWord_acc : (storeWord st w word s).acc = s.acc := by simp [storeWord]
@[simp] theorem storeWord_b : (storeWord st w word s).b = s.b := by simp [storeWord]
@[simp] theorem storeWord_e : (storeWord st w word s).e = s.e := by simp [storeWord]
@[simp] theorem storeWord_m : (storeWord st w word s).m = s.m := by simp [storeWord]
@[simp] theorem storeWord_resp : (storeWord st w word s).resp = s.resp := by simp [storeWord]
@[simp] theorem storeWord_epoch : (storeWord st w word s).epoch = s.epoch := by simp [storeWord]
@[simp] theorem storeWord_draws : (storeWord st w word s).draws = s.draws := by simp [storeWord]
@[simp] theorem storeWord_inputs : (storeWord st w word s).inputs = s.inputs := by simp [storeWord]

@[simp] theorem complete_cfg : (complete code s).cfg = s.cfg := rfl
@[simp] theorem complete_done : (complete code s).done = true := rfl
@[simp] theorem complete_ovr : (complete code s).ovr = s.ovr := rfl
@[simp] theorem complete_err : (complete code s).err = codeBits code := rfl
@[simp] theorem complete_ie : (complete code s).ie = s.ie := rfl
@[simp] theorem complete_keyLen : (complete code s).keyLen = s.keyLen := rfl
@[simp] theorem complete_dataLen : (complete code s).dataLen = s.dataLen := rfl
@[simp] theorem complete_mxBase : (complete code s).mxBase = s.mxBase := rfl
@[simp] theorem complete_mxExp : (complete code s).mxExp = s.mxExp := rfl
@[simp] theorem complete_mxMod : (complete code s).mxMod = s.mxMod := rfl
@[simp] theorem complete_mxResult : (complete code s).mxResult = s.mxResult := rfl
@[simp] theorem complete_keyStore : (complete code s).keyStore = s.keyStore := rfl
@[simp] theorem complete_permStore : (complete code s).permStore = s.permStore := rfl
@[simp] theorem complete_dataStore : (complete code s).dataStore = s.dataStore := rfl
@[simp] theorem complete_phase : (complete code s).phase = .idle := rfl
@[simp] theorem complete_op : (complete code s).op = s.op := rfl
@[simp] theorem complete_c : (complete code s).c = s.c := rfl
@[simp] theorem complete_kidx : (complete code s).kidx = s.kidx := rfl
@[simp] theorem complete_i : (complete code s).i = s.i := rfl
@[simp] theorem complete_j : (complete code s).j = s.j := rfl
@[simp] theorem complete_k : (complete code s).k = s.k := rfl
@[simp] theorem complete_acc : (complete code s).acc = s.acc := rfl
@[simp] theorem complete_b : (complete code s).b = s.b := rfl
@[simp] theorem complete_e : (complete code s).e = s.e := rfl
@[simp] theorem complete_m : (complete code s).m = s.m := rfl
@[simp] theorem complete_resp : (complete code s).resp = s.resp := rfl
@[simp] theorem complete_epoch : (complete code s).epoch = s.epoch := rfl
@[simp] theorem complete_draws : (complete code s).draws = s.draws := rfl
@[simp] theorem complete_inputs : (complete code s).inputs = s.inputs := rfl

@[simp] theorem ksaInit_cfg : (ksaInit s).cfg = s.cfg := rfl
@[simp] theorem ksaInit_done : (ksaInit s).done = s.done := rfl
@[simp] theorem ksaInit_ovr : (ksaInit s).ovr = s.ovr := rfl
@[simp] theorem ksaInit_err : (ksaInit s).err = s.err := rfl
@[simp] theorem ksaInit_ie : (ksaInit s).ie = s.ie := rfl
@[simp] theorem ksaInit_keyLen : (ksaInit s).keyLen = s.keyLen := rfl
@[simp] theorem ksaInit_dataLen : (ksaInit s).dataLen = s.dataLen := rfl
@[simp] theorem ksaInit_mxBase : (ksaInit s).mxBase = s.mxBase := rfl
@[simp] theorem ksaInit_mxExp : (ksaInit s).mxExp = s.mxExp := rfl
@[simp] theorem ksaInit_mxMod : (ksaInit s).mxMod = s.mxMod := rfl
@[simp] theorem ksaInit_mxResult : (ksaInit s).mxResult = s.mxResult := rfl
@[simp] theorem ksaInit_keyStore : (ksaInit s).keyStore = s.keyStore := rfl
@[simp] theorem ksaInit_permStore : (ksaInit s).permStore = [] := rfl
@[simp] theorem ksaInit_dataStore : (ksaInit s).dataStore = s.dataStore := rfl
@[simp] theorem ksaInit_phase : (ksaInit s).phase = s.phase := rfl
@[simp] theorem ksaInit_op : (ksaInit s).op = s.op := rfl
@[simp] theorem ksaInit_c : (ksaInit s).c = 0#9 := rfl
@[simp] theorem ksaInit_kidx : (ksaInit s).kidx = 0#9 := rfl
@[simp] theorem ksaInit_i : (ksaInit s).i = s.i := rfl
@[simp] theorem ksaInit_j : (ksaInit s).j = 0#8 := rfl
@[simp] theorem ksaInit_k : (ksaInit s).k = s.k := rfl
@[simp] theorem ksaInit_acc : (ksaInit s).acc = s.acc := rfl
@[simp] theorem ksaInit_b : (ksaInit s).b = s.b := rfl
@[simp] theorem ksaInit_e : (ksaInit s).e = s.e := rfl
@[simp] theorem ksaInit_m : (ksaInit s).m = s.m := rfl
@[simp] theorem ksaInit_resp : (ksaInit s).resp = s.resp := rfl
@[simp] theorem ksaInit_epoch : (ksaInit s).epoch = s.epoch := rfl
@[simp] theorem ksaInit_draws : (ksaInit s).draws = s.draws := rfl
@[simp] theorem ksaInit_inputs : (ksaInit s).inputs = s.inputs := rfl

@[simp] theorem ksaAdvance_cfg : (ksaAdvance s).cfg = s.cfg := rfl
@[simp] theorem ksaAdvance_done : (ksaAdvance s).done = s.done := rfl
@[simp] theorem ksaAdvance_ovr : (ksaAdvance s).ovr = s.ovr := rfl
@[simp] theorem ksaAdvance_err : (ksaAdvance s).err = s.err := rfl
@[simp] theorem ksaAdvance_ie : (ksaAdvance s).ie = s.ie := rfl
@[simp] theorem ksaAdvance_keyLen : (ksaAdvance s).keyLen = s.keyLen := rfl
@[simp] theorem ksaAdvance_dataLen : (ksaAdvance s).dataLen = s.dataLen := rfl
@[simp] theorem ksaAdvance_mxBase : (ksaAdvance s).mxBase = s.mxBase := rfl
@[simp] theorem ksaAdvance_mxExp : (ksaAdvance s).mxExp = s.mxExp := rfl
@[simp] theorem ksaAdvance_mxMod : (ksaAdvance s).mxMod = s.mxMod := rfl
@[simp] theorem ksaAdvance_mxResult : (ksaAdvance s).mxResult = s.mxResult := rfl
@[simp] theorem ksaAdvance_keyStore : (ksaAdvance s).keyStore = s.keyStore := rfl
@[simp] theorem ksaAdvance_permStore : (ksaAdvance s).permStore = s.permStore := rfl
@[simp] theorem ksaAdvance_dataStore : (ksaAdvance s).dataStore = s.dataStore := rfl
@[simp] theorem ksaAdvance_phase : (ksaAdvance s).phase = s.phase := rfl
@[simp] theorem ksaAdvance_op : (ksaAdvance s).op = s.op := rfl
@[simp] theorem ksaAdvance_c : (ksaAdvance s).c = s.c + 1#9 := rfl
@[simp] theorem ksaAdvance_kidx : (ksaAdvance s).kidx = nextKidx s.keyLen s.kidx := rfl
@[simp] theorem ksaAdvance_i : (ksaAdvance s).i = s.i := rfl
@[simp] theorem ksaAdvance_j : (ksaAdvance s).j = s.j := rfl
@[simp] theorem ksaAdvance_k : (ksaAdvance s).k = s.k := rfl
@[simp] theorem ksaAdvance_acc : (ksaAdvance s).acc = s.acc := rfl
@[simp] theorem ksaAdvance_b : (ksaAdvance s).b = s.b := rfl
@[simp] theorem ksaAdvance_e : (ksaAdvance s).e = s.e := rfl
@[simp] theorem ksaAdvance_m : (ksaAdvance s).m = s.m := rfl
@[simp] theorem ksaAdvance_resp : (ksaAdvance s).resp = s.resp := rfl
@[simp] theorem ksaAdvance_epoch : (ksaAdvance s).epoch = s.epoch := rfl
@[simp] theorem ksaAdvance_draws : (ksaAdvance s).draws = s.draws := rfl
@[simp] theorem ksaAdvance_inputs : (ksaAdvance s).inputs = s.inputs := rfl

@[simp] theorem ksaSwap_cfg : (ksaSwap s).cfg = s.cfg := rfl
@[simp] theorem ksaSwap_done : (ksaSwap s).done = s.done := rfl
@[simp] theorem ksaSwap_ovr : (ksaSwap s).ovr = s.ovr := rfl
@[simp] theorem ksaSwap_err : (ksaSwap s).err = s.err := rfl
@[simp] theorem ksaSwap_ie : (ksaSwap s).ie = s.ie := rfl
@[simp] theorem ksaSwap_keyLen : (ksaSwap s).keyLen = s.keyLen := rfl
@[simp] theorem ksaSwap_dataLen : (ksaSwap s).dataLen = s.dataLen := rfl
@[simp] theorem ksaSwap_mxBase : (ksaSwap s).mxBase = s.mxBase := rfl
@[simp] theorem ksaSwap_mxExp : (ksaSwap s).mxExp = s.mxExp := rfl
@[simp] theorem ksaSwap_mxMod : (ksaSwap s).mxMod = s.mxMod := rfl
@[simp] theorem ksaSwap_mxResult : (ksaSwap s).mxResult = s.mxResult := rfl
@[simp] theorem ksaSwap_keyStore : (ksaSwap s).keyStore = s.keyStore := rfl
@[simp] theorem ksaSwap_dataStore : (ksaSwap s).dataStore = s.dataStore := rfl
@[simp] theorem ksaSwap_phase : (ksaSwap s).phase = s.phase := rfl
@[simp] theorem ksaSwap_op : (ksaSwap s).op = s.op := rfl
@[simp] theorem ksaSwap_c : (ksaSwap s).c = s.c := rfl
@[simp] theorem ksaSwap_kidx : (ksaSwap s).kidx = s.kidx := rfl
@[simp] theorem ksaSwap_i : (ksaSwap s).i = s.i := rfl
@[simp] theorem ksaSwap_j : (ksaSwap s).j = ksaJ s := rfl
@[simp] theorem ksaSwap_k : (ksaSwap s).k = s.k := rfl
@[simp] theorem ksaSwap_acc : (ksaSwap s).acc = s.acc := rfl
@[simp] theorem ksaSwap_b : (ksaSwap s).b = s.b := rfl
@[simp] theorem ksaSwap_e : (ksaSwap s).e = s.e := rfl
@[simp] theorem ksaSwap_m : (ksaSwap s).m = s.m := rfl
@[simp] theorem ksaSwap_resp : (ksaSwap s).resp = s.resp := rfl
@[simp] theorem ksaSwap_epoch : (ksaSwap s).epoch = s.epoch := rfl
@[simp] theorem ksaSwap_draws : (ksaSwap s).draws = s.draws := rfl
@[simp] theorem ksaSwap_inputs : (ksaSwap s).inputs = s.inputs := rfl

@[simp] theorem prgaSwap_cfg : (prgaSwap s).cfg = s.cfg := rfl
@[simp] theorem prgaSwap_done : (prgaSwap s).done = s.done := rfl
@[simp] theorem prgaSwap_ovr : (prgaSwap s).ovr = s.ovr := rfl
@[simp] theorem prgaSwap_err : (prgaSwap s).err = s.err := rfl
@[simp] theorem prgaSwap_ie : (prgaSwap s).ie = s.ie := rfl
@[simp] theorem prgaSwap_keyLen : (prgaSwap s).keyLen = s.keyLen := rfl
@[simp] theorem prgaSwap_dataLen : (prgaSwap s).dataLen = s.dataLen := rfl
@[simp] theorem prgaSwap_mxBase : (prgaSwap s).mxBase = s.mxBase := rfl
@[simp] theorem prgaSwap_mxExp : (prgaSwap s).mxExp = s.mxExp := rfl
@[simp] theorem prgaSwap_mxMod : (prgaSwap s).mxMod = s.mxMod := rfl
@[simp] theorem prgaSwap_mxResult : (prgaSwap s).mxResult = s.mxResult := rfl
@[simp] theorem prgaSwap_keyStore : (prgaSwap s).keyStore = s.keyStore := rfl
@[simp] theorem prgaSwap_dataStore : (prgaSwap s).dataStore = s.dataStore := rfl
@[simp] theorem prgaSwap_phase : (prgaSwap s).phase = s.phase := rfl
@[simp] theorem prgaSwap_op : (prgaSwap s).op = s.op := rfl
@[simp] theorem prgaSwap_c : (prgaSwap s).c = s.c := rfl
@[simp] theorem prgaSwap_kidx : (prgaSwap s).kidx = s.kidx := rfl
@[simp] theorem prgaSwap_i : (prgaSwap s).i = prgaI s := rfl
@[simp] theorem prgaSwap_j : (prgaSwap s).j = prgaJ s := rfl
@[simp] theorem prgaSwap_k : (prgaSwap s).k = s.k := rfl
@[simp] theorem prgaSwap_acc : (prgaSwap s).acc = s.acc := rfl
@[simp] theorem prgaSwap_b : (prgaSwap s).b = s.b := rfl
@[simp] theorem prgaSwap_e : (prgaSwap s).e = s.e := rfl
@[simp] theorem prgaSwap_m : (prgaSwap s).m = s.m := rfl
@[simp] theorem prgaSwap_resp : (prgaSwap s).resp = s.resp := rfl
@[simp] theorem prgaSwap_epoch : (prgaSwap s).epoch = s.epoch := rfl
@[simp] theorem prgaSwap_draws : (prgaSwap s).draws = s.draws := rfl
@[simp] theorem prgaSwap_inputs : (prgaSwap s).inputs = s.inputs := rfl

@[simp] theorem prgaCombine_cfg : (prgaCombine s).cfg = s.cfg := rfl
@[simp] theorem prgaCombine_done : (prgaCombine s).done = s.done := rfl
@[simp] theorem prgaCombine_ovr : (prgaCombine s).ovr = s.ovr := rfl
@[simp] theorem prgaCombine_err : (prgaCombine s).err = s.err := rfl
@[simp] theorem prgaCombine_ie : (prgaCombine s).ie = s.ie := rfl
@[simp] theorem prgaCombine_keyLen : (prgaCombine s).keyLen = s.keyLen := rfl
@[simp] theorem prgaCombine_dataLen : (prgaCombine s).dataLen = s.dataLen := rfl
@[simp] theorem prgaCombine_mxBase : (prgaCombine s).mxBase = s.mxBase := rfl
@[simp] theorem prgaCombine_mxExp : (prgaCombine s).mxExp = s.mxExp := rfl
@[simp] theorem prgaCombine_mxMod : (prgaCombine s).mxMod = s.mxMod := rfl
@[simp] theorem prgaCombine_mxResult : (prgaCombine s).mxResult = s.mxResult := rfl
@[simp] theorem prgaCombine_keyStore : (prgaCombine s).keyStore = s.keyStore := rfl
@[simp] theorem prgaCombine_permStore : (prgaCombine s).permStore = s.permStore := rfl
@[simp] theorem prgaCombine_phase : (prgaCombine s).phase = s.phase := rfl
@[simp] theorem prgaCombine_op : (prgaCombine s).op = s.op := rfl
@[simp] theorem prgaCombine_c : (prgaCombine s).c = s.c := rfl
@[simp] theorem prgaCombine_kidx : (prgaCombine s).kidx = s.kidx := rfl
@[simp] theorem prgaCombine_i : (prgaCombine s).i = s.i := rfl
@[simp] theorem prgaCombine_j : (prgaCombine s).j = s.j := rfl
@[simp] theorem prgaCombine_k : (prgaCombine s).k = s.k + 1#17 := rfl
@[simp] theorem prgaCombine_acc : (prgaCombine s).acc = s.acc := rfl
@[simp] theorem prgaCombine_b : (prgaCombine s).b = s.b := rfl
@[simp] theorem prgaCombine_e : (prgaCombine s).e = s.e := rfl
@[simp] theorem prgaCombine_m : (prgaCombine s).m = s.m := rfl
@[simp] theorem prgaCombine_resp : (prgaCombine s).resp = s.resp := rfl
@[simp] theorem prgaCombine_epoch : (prgaCombine s).epoch = s.epoch := rfl
@[simp] theorem prgaCombine_draws : (prgaCombine s).draws = s.draws := rfl
@[simp] theorem prgaCombine_inputs : (prgaCombine s).inputs = s.inputs := rfl

@[simp] theorem prgaInit_cfg : (prgaInit s).cfg = s.cfg := rfl
@[simp] theorem prgaInit_done : (prgaInit s).done = s.done := rfl
@[simp] theorem prgaInit_ovr : (prgaInit s).ovr = s.ovr := rfl
@[simp] theorem prgaInit_err : (prgaInit s).err = s.err := rfl
@[simp] theorem prgaInit_ie : (prgaInit s).ie = s.ie := rfl
@[simp] theorem prgaInit_keyLen : (prgaInit s).keyLen = s.keyLen := rfl
@[simp] theorem prgaInit_dataLen : (prgaInit s).dataLen = s.dataLen := rfl
@[simp] theorem prgaInit_mxBase : (prgaInit s).mxBase = s.mxBase := rfl
@[simp] theorem prgaInit_mxExp : (prgaInit s).mxExp = s.mxExp := rfl
@[simp] theorem prgaInit_mxMod : (prgaInit s).mxMod = s.mxMod := rfl
@[simp] theorem prgaInit_mxResult : (prgaInit s).mxResult = s.mxResult := rfl
@[simp] theorem prgaInit_keyStore : (prgaInit s).keyStore = s.keyStore := rfl
@[simp] theorem prgaInit_permStore : (prgaInit s).permStore = s.permStore := rfl
@[simp] theorem prgaInit_dataStore : (prgaInit s).dataStore = s.dataStore := rfl
@[simp] theorem prgaInit_phase : (prgaInit s).phase = s.phase := rfl
@[simp] theorem prgaInit_op : (prgaInit s).op = s.op := rfl
@[simp] theorem prgaInit_c : (prgaInit s).c = s.c := rfl
@[simp] theorem prgaInit_kidx : (prgaInit s).kidx = s.kidx := rfl
@[simp] theorem prgaInit_i : (prgaInit s).i = 0#8 := rfl
@[simp] theorem prgaInit_j : (prgaInit s).j = 0#8 := rfl
@[simp] theorem prgaInit_k : (prgaInit s).k = 0#17 := rfl
@[simp] theorem prgaInit_acc : (prgaInit s).acc = s.acc := rfl
@[simp] theorem prgaInit_b : (prgaInit s).b = s.b := rfl
@[simp] theorem prgaInit_e : (prgaInit s).e = s.e := rfl
@[simp] theorem prgaInit_m : (prgaInit s).m = s.m := rfl
@[simp] theorem prgaInit_resp : (prgaInit s).resp = s.resp := rfl
@[simp] theorem prgaInit_epoch : (prgaInit s).epoch = s.epoch := rfl
@[simp] theorem prgaInit_draws : (prgaInit s).draws = s.draws := rfl
@[simp] theorem prgaInit_inputs : (prgaInit s).inputs = s.inputs := rfl

@[simp] theorem mxInit_cfg : (mxInit s).cfg = s.cfg := rfl
@[simp] theorem mxInit_done : (mxInit s).done = s.done := rfl
@[simp] theorem mxInit_ovr : (mxInit s).ovr = s.ovr := rfl
@[simp] theorem mxInit_err : (mxInit s).err = s.err := rfl
@[simp] theorem mxInit_ie : (mxInit s).ie = s.ie := rfl
@[simp] theorem mxInit_keyLen : (mxInit s).keyLen = s.keyLen := rfl
@[simp] theorem mxInit_dataLen : (mxInit s).dataLen = s.dataLen := rfl
@[simp] theorem mxInit_mxBase : (mxInit s).mxBase = s.mxBase := rfl
@[simp] theorem mxInit_mxExp : (mxInit s).mxExp = s.mxExp := rfl
@[simp] theorem mxInit_mxMod : (mxInit s).mxMod = s.mxMod := rfl
@[simp] theorem mxInit_mxResult : (mxInit s).mxResult = s.mxResult := rfl
@[simp] theorem mxInit_keyStore : (mxInit s).keyStore = s.keyStore := rfl
@[simp] theorem mxInit_permStore : (mxInit s).permStore = s.permStore := rfl
@[simp] theorem mxInit_dataStore : (mxInit s).dataStore = s.dataStore := rfl
@[simp] theorem mxInit_phase : (mxInit s).phase = s.phase := rfl
@[simp] theorem mxInit_op : (mxInit s).op = s.op := rfl
@[simp] theorem mxInit_c : (mxInit s).c = s.c := rfl
@[simp] theorem mxInit_kidx : (mxInit s).kidx = s.kidx := rfl
@[simp] theorem mxInit_i : (mxInit s).i = s.i := rfl
@[simp] theorem mxInit_j : (mxInit s).j = s.j := rfl
@[simp] theorem mxInit_k : (mxInit s).k = s.k := rfl
@[simp] theorem mxInit_acc : (mxInit s).acc = BitVec.ofNat 64 (1 % s.mxMod.toNat) := rfl
@[simp] theorem mxInit_b : (mxInit s).b = BitVec.ofNat 32 (s.mxBase.toNat % s.mxMod.toNat) := rfl
@[simp] theorem mxInit_e : (mxInit s).e = s.mxExp := rfl
@[simp] theorem mxInit_m : (mxInit s).m = s.mxMod := rfl
@[simp] theorem mxInit_resp : (mxInit s).resp = s.resp := rfl
@[simp] theorem mxInit_epoch : (mxInit s).epoch = s.epoch := rfl
@[simp] theorem mxInit_draws : (mxInit s).draws = s.draws := rfl
@[simp] theorem mxInit_inputs : (mxInit s).inputs = s.inputs := rfl

@[simp] theorem mxComplete_cfg : (mxComplete s).cfg = s.cfg := rfl
@[simp] theorem mxComplete_done : (mxComplete s).done = true := rfl
@[simp] theorem mxComplete_ovr : (mxComplete s).ovr = s.ovr := rfl
@[simp] theorem mxComplete_err : (mxComplete s).err = codeBits .ok := rfl
@[simp] theorem mxComplete_ie : (mxComplete s).ie = s.ie := rfl
@[simp] theorem mxComplete_keyLen : (mxComplete s).keyLen = s.keyLen := rfl
@[simp] theorem mxComplete_dataLen : (mxComplete s).dataLen = s.dataLen := rfl
@[simp] theorem mxComplete_mxBase : (mxComplete s).mxBase = s.mxBase := rfl
@[simp] theorem mxComplete_mxExp : (mxComplete s).mxExp = s.mxExp := rfl
@[simp] theorem mxComplete_mxMod : (mxComplete s).mxMod = s.mxMod := rfl
@[simp] theorem mxComplete_mxResult : (mxComplete s).mxResult = s.acc.setWidth 32 := rfl
@[simp] theorem mxComplete_keyStore : (mxComplete s).keyStore = s.keyStore := rfl
@[simp] theorem mxComplete_permStore : (mxComplete s).permStore = s.permStore := rfl
@[simp] theorem mxComplete_dataStore : (mxComplete s).dataStore = s.dataStore := rfl
@[simp] theorem mxComplete_phase : (mxComplete s).phase = .idle := rfl
@[simp] theorem mxComplete_op : (mxComplete s).op = s.op := rfl
@[simp] theorem mxComplete_c : (mxComplete s).c = s.c := rfl
@[simp] theorem mxComplete_kidx : (mxComplete s).kidx = s.kidx := rfl
@[simp] theorem mxComplete_i : (mxComplete s).i = s.i := rfl
@[simp] theorem mxComplete_j : (mxComplete s).j = s.j := rfl
@[simp] theorem mxComplete_k : (mxComplete s).k = s.k := rfl
@[simp] theorem mxComplete_acc : (mxComplete s).acc = s.acc := rfl
@[simp] theorem mxComplete_b : (mxComplete s).b = s.b := rfl
@[simp] theorem mxComplete_e : (mxComplete s).e = s.e := rfl
@[simp] theorem mxComplete_m : (mxComplete s).m = s.m := rfl
@[simp] theorem mxComplete_resp : (mxComplete s).resp = s.resp := rfl
@[simp] theorem mxComplete_epoch : (mxComplete s).epoch = s.epoch := rfl
@[simp] theorem mxComplete_draws : (mxComplete s).draws = s.draws := rfl
@[simp] theorem mxComplete_inputs : (mxComplete s).inputs = s.inputs := rfl

@[simp] theorem writeStatus_cfg : (writeStatus word s).cfg = s.cfg := rfl
@[simp] theorem writeStatus_done : (writeStatus word s).done = (s.done && !word.getLsbD 1) := rfl
@[simp] theorem writeStatus_ovr : (writeStatus word s).ovr = (s.ovr && !word.getLsbD 2) := rfl
@[simp] theorem writeStatus_err : (writeStatus word s).err = s.err := rfl
@[simp] theorem writeStatus_ie : (writeStatus word s).ie = s.ie := rfl
@[simp] theorem writeStatus_keyLen : (writeStatus word s).keyLen = s.keyLen := rfl
@[simp] theorem writeStatus_dataLen : (writeStatus word s).dataLen = s.dataLen := rfl
@[simp] theorem writeStatus_mxBase : (writeStatus word s).mxBase = s.mxBase := rfl
@[simp] theorem writeStatus_mxExp : (writeStatus word s).mxExp = s.mxExp := rfl
@[simp] theorem writeStatus_mxMod : (writeStatus word s).mxMod = s.mxMod := rfl
@[simp] theorem writeStatus_mxResult : (writeStatus word s).mxResult = s.mxResult := rfl
@[simp] theorem writeStatus_keyStore : (writeStatus word s).keyStore = s.keyStore := rfl
@[simp] theorem writeStatus_permStore : (writeStatus word s).permStore = s.permStore := rfl
@[simp] theorem writeStatus_dataStore : (writeStatus word s).dataStore = s.dataStore := rfl
@[simp] theorem writeStatus_phase : (writeStatus word s).phase = s.phase := rfl
@[simp] theorem writeStatus_op : (writeStatus word s).op = s.op := rfl
@[simp] theorem writeStatus_c : (writeStatus word s).c = s.c := rfl
@[simp] theorem writeStatus_kidx : (writeStatus word s).kidx = s.kidx := rfl
@[simp] theorem writeStatus_i : (writeStatus word s).i = s.i := rfl
@[simp] theorem writeStatus_j : (writeStatus word s).j = s.j := rfl
@[simp] theorem writeStatus_k : (writeStatus word s).k = s.k := rfl
@[simp] theorem writeStatus_acc : (writeStatus word s).acc = s.acc := rfl
@[simp] theorem writeStatus_b : (writeStatus word s).b = s.b := rfl
@[simp] theorem writeStatus_e : (writeStatus word s).e = s.e := rfl
@[simp] theorem writeStatus_m : (writeStatus word s).m = s.m := rfl
@[simp] theorem writeStatus_resp : (writeStatus word s).resp = s.resp := rfl
@[simp] theorem writeStatus_epoch : (writeStatus word s).epoch = s.epoch := rfl
@[simp] theorem writeStatus_draws : (writeStatus word s).draws = s.draws := rfl
@[simp] theorem writeStatus_inputs : (writeStatus word s).inputs = s.inputs := rfl

@[simp] theorem writeCtrl_cfg : (writeCtrl word s).cfg = s.cfg := rfl
@[simp] theorem writeCtrl_done : (writeCtrl word s).done = s.done := rfl
@[simp] theorem writeCtrl_ovr : (writeCtrl word s).ovr = s.ovr := rfl
@[simp] theorem writeCtrl_err : (writeCtrl word s).err = s.err := rfl
@[simp] theorem writeCtrl_ie : (writeCtrl word s).ie = word.getLsbD 0 := rfl
@[simp] theorem writeCtrl_keyLen : (writeCtrl word s).keyLen = s.keyLen := rfl
@[simp] theorem writeCtrl_dataLen : (writeCtrl word s).dataLen = s.dataLen := rfl
@[simp] theorem writeCtrl_mxBase : (writeCtrl word s).mxBase = s.mxBase := rfl
@[simp] theorem writeCtrl_mxExp : (writeCtrl word s).mxExp = s.mxExp := rfl
@[simp] theorem writeCtrl_mxMod : (writeCtrl word s).mxMod = s.mxMod := rfl
@[simp] theorem writeCtrl_mxResult : (writeCtrl word s).mxResult = s.mxResult := rfl
@[simp] theorem writeCtrl_keyStore : (writeCtrl word s).keyStore = s.keyStore := rfl
@[simp] theorem writeCtrl_permStore : (writeCtrl word s).permStore = s.permStore := rfl
@[simp] theorem writeCtrl_dataStore : (writeCtrl word s).dataStore = s.dataStore := rfl
@[simp] theorem writeCtrl_phase : (writeCtrl word s).phase = s.phase := rfl
@[simp] theorem writeCtrl_op : (writeCtrl word s).op = s.op := rfl
@[simp] theorem writeCtrl_c : (writeCtrl word s).c = s.c := rfl
@[simp] theorem writeCtrl_kidx : (writeCtrl word s).kidx = s.kidx := rfl
@[simp] theorem writeCtrl_i : (writeCtrl word s).i = s.i := rfl
@[simp] theorem writeCtrl_j : (writeCtrl word s).j = s.j := rfl
@[simp] theorem writeCtrl_k : (writeCtrl word s).k = s.k := rfl
@[simp] theorem writeCtrl_acc : (writeCtrl word s).acc = s.acc := rfl
@[simp] theorem writeCtrl_b : (writeCtrl word s).b = s.b := rfl
@[simp] theorem writeCtrl_e : (writeCtrl word s).e = s.e := rfl
@[simp] theorem writeCtrl_m : (writeCtrl word s).m = s.m := rfl
@[simp] theorem writeCtrl_resp : (writeCtrl word s).resp = s.resp := rfl
@[simp] theorem writeCtrl_epoch : (writeCtrl word s).epoch = s.epoch := rfl
@[simp] theorem writeCtrl_draws : (writeCtrl word s).draws = s.draws := rfl
@[simp] theorem writeCtrl_inputs : (writeCtrl word s).inputs = s.inputs := rfl

@[simp] theorem respondWrite_cfg : (respondWrite err s).cfg = s.cfg := rfl
@[simp] theorem respondWrite_done : (respondWrite err s).done = s.done := rfl
@[simp] theorem respondWrite_ovr : (respondWrite err s).ovr = s.ovr := rfl
@[simp] theorem respondWrite_err : (respondWrite err s).err = s.err := rfl
@[simp] theorem respondWrite_ie : (respondWrite err s).ie = s.ie := rfl
@[simp] theorem respondWrite_keyLen : (respondWrite err s).keyLen = s.keyLen := rfl
@[simp] theorem respondWrite_dataLen : (respondWrite err s).dataLen = s.dataLen := rfl
@[simp] theorem respondWrite_mxBase : (respondWrite err s).mxBase = s.mxBase := rfl
@[simp] theorem respondWrite_mxExp : (respondWrite err s).mxExp = s.mxExp := rfl
@[simp] theorem respondWrite_mxMod : (respondWrite err s).mxMod = s.mxMod := rfl
@[simp] theorem respondWrite_mxResult : (respondWrite err s).mxResult = s.mxResult := rfl
@[simp] theorem respondWrite_keyStore : (respondWrite err s).keyStore = s.keyStore := rfl
@[simp] theorem respondWrite_permStore : (respondWrite err s).permStore = s.permStore := rfl
@[simp] theorem respondWrite_dataStore : (respondWrite err s).dataStore = s.dataStore := rfl
@[simp] theorem respondWrite_phase : (respondWrite err s).phase = s.phase := rfl
@[simp] theorem respondWrite_op : (respondWrite err s).op = s.op := rfl
@[simp] theorem respondWrite_c : (respondWrite err s).c = s.c := rfl
@[simp] theorem respondWrite_kidx : (respondWrite err s).kidx = s.kidx := rfl
@[simp] theorem respondWrite_i : (respondWrite err s).i = s.i := rfl
@[simp] theorem respondWrite_j : (respondWrite err s).j = s.j := rfl
@[simp] theorem respondWrite_k : (respondWrite err s).k = s.k := rfl
@[simp] theorem respondWrite_acc : (respondWrite err s).acc = s.acc := rfl
@[simp] theorem respondWrite_b : (respondWrite err s).b = s.b := rfl
@[simp] theorem respondWrite_e : (respondWrite err s).e = s.e := rfl
@[simp] theorem respondWrite_m : (respondWrite err s).m = s.m := rfl
@[simp] theorem respondWrite_resp : (respondWrite err s).resp = some (.write err) := rfl
@[simp] theorem respondWrite_epoch : (respondWrite err s).epoch = s.epoch := rfl
@[simp] theorem respondWrite_draws : (respondWrite err s).draws = s.draws := rfl
@[simp] theorem respondWrite_inputs : (respondWrite err s).inputs = s.inputs := rfl

end Sys2Proof.Machine
end

