-- ==== Sys2Proof/Laws/Ops.lean ====
section
/-! SUPPORT. One specification lemma per shared operation: what it does to a byte read of any store. -/

namespace Sys2Proof.Machine

/-- A state's stores are in canonical form and inside their stores. -/
structure StoresWf (s : State) : Prop where
  key : Memory.wf .key 256 s.keyStore = true
  perm : Memory.wf .perm 256 s.permStore = true
  data : Memory.wf .data s.dbufSize s.dataStore = true

theorem cells_storeByte (st st' : Store) (x : Nat) (v : Byte) (s : State) :
    (storeByte st x v s).cells st' = if st' = st then Memory.write st x v (s.cells st) else s.cells st' := by
  cases st <;> cases st' <;> rfl

@[simp] theorem dbufSize_storeByte (st : Store) (x : Nat) (v : Byte) (s : State) :
    (storeByte st x v s).dbufSize = s.dbufSize := by
  simp [State.dbufSize]

/-- Writing a byte leaves every other byte of every store. -/
theorem load_storeByte_other {st st' : Store} {x y : Nat} {v : Byte} (s : State) (h : ¬(st' = st ∧ y = x)) :
    (storeByte st x v s).load st' y = s.load st' y := by
  unfold State.load
  rw [cells_storeByte]
  split
  · next hst =>
    subst hst
    simp only [storeByte_epoch]
    exact Memory.read_write_other _ (fun hy => h ⟨rfl, hy⟩)
  · simp

/-- Writing a byte of KEY or DATA: it then reads as written. -/
theorem load_storeByte_ram {st : Store} (hst : st ≠ .perm) (x : Nat) (v : Byte) (s : State) :
    (storeByte st x v s).load st x = v := by
  unfold State.load
  rw [cells_storeByte, if_pos rfl]
  exact Memory.read_write_same_unknown _ (fun a => by cases st <;> simp_all [unlistedKnown])

/-- Writing a byte of S, in canonical form: it then reads as written. -/
theorem load_storeByte_perm {x : Nat} {v : Byte} {s : State} (hp : Memory.wf .perm 256 s.permStore = true) :
    (storeByte .perm x v s).load .perm x = v := by
  unfold State.load
  rw [cells_storeByte, if_pos rfl]
  exact Memory.read_write_same hp

/-- Any store, in canonical form. -/
theorem load_storeByte_same {st : Store} {x : Nat} {v : Byte} {s : State}
    (hp : st = .perm → Memory.wf .perm 256 s.permStore = true) : (storeByte st x v s).load st x = v := by
  cases st
  · exact load_storeByte_ram (by decide) x v s
  · exact load_storeByte_perm (hp rfl)
  · exact load_storeByte_ram (by decide) x v s

theorem storeByte_perm_wf {x : Nat} {v : Byte} {s : State} (hx : x < 256)
    (hp : Memory.wf .perm 256 s.permStore = true) : Memory.wf .perm 256 (storeByte .perm x v s).permStore = true :=
  Memory.wf_write hx hp

/-- A write inside its store keeps the canonical form of all three. -/
theorem storesWf_storeByte {st : Store} {x : Nat} {v : Byte} {s : State} (hx : x < s.storeSize st) (h : StoresWf s) :
    StoresWf (storeByte st x v s) := by
  cases st
  · exact ⟨Memory.wf_write hx h.key, h.perm, h.data⟩
  · exact ⟨h.key, Memory.wf_write hx h.perm, h.data⟩
  · exact ⟨h.key, h.perm, Memory.wf_write hx h.data⟩

theorem storesWf_swapPerm {p q : Byte} {s : State} (h : StoresWf s) : StoresWf (swapPerm p q s) :=
  storesWf_storeByte q.isLt (storesWf_storeByte p.isLt h)

/-- What a swap does to S (00_scope.md R11). -/
theorem permAt_swapPerm {p q x : Byte} {s : State} (hp : Memory.wf .perm 256 s.permStore = true) :
    (swapPerm p q s).permAt x = if x = p then s.permAt q else if x = q then s.permAt p else s.permAt x := by
  have hp1 := storeByte_perm_wf (v := s.permAt q) (s := s) p.isLt hp
  unfold State.permAt swapPerm
  by_cases hq : x = q
  · subst hq
    rw [load_storeByte_perm hp1]
    by_cases hxp : x = p
    · subst hxp; simp [State.permAt]
    · simp [hxp, State.permAt]
  · have hqn : x.toNat ≠ q.toNat := fun h => hq (BitVec.eq_of_toNat_eq h)
    rw [load_storeByte_other _ (by simp [hqn])]
    by_cases hxp : x = p
    · subst hxp
      rw [load_storeByte_perm hp, if_pos rfl]; rfl
    · have hpn : x.toNat ≠ p.toNat := fun h => hxp (BitVec.eq_of_toNat_eq h)
      rw [load_storeByte_other _ (by simp [hpn]), if_neg hxp, if_neg hq]

/-- A swap touches no byte outside S. -/
theorem load_swapPerm_other {p q : Byte} {st : Store} {y : Nat} (s : State) (h : st ≠ .perm) :
    (swapPerm p q s).load st y = s.load st y := by
  unfold swapPerm
  rw [load_storeByte_other _ (by simp [h]), load_storeByte_other _ (by simp [h])]

/-- A byte of S beyond the 256 is no index of a swap. -/
theorem load_swapPerm_beyond {p q : Byte} {y : Nat} (s : State) (h : 256 ≤ y) :
    (swapPerm p q s).load .perm y = s.load .perm y := by
  have hp := p.isLt
  have hq := q.isLt
  unfold swapPerm
  rw [load_storeByte_other _ (by omega), load_storeByte_other _ (by omega)]

/-- S is a bijection before a swap, so it is one after (10_state.md R42). -/
theorem swap_bijective {S : Byte → Byte} {p q : Byte} (h : ∀ v, ∃ x, S x = v ∧ ∀ y, S y = v → y = x) (v : Byte) :
    ∃ x, (if x = p then S q else if x = q then S p else S x) = v ∧
      ∀ y, (if y = p then S q else if y = q then S p else S y) = v → y = x := by
  have inj : ∀ a b, S a = S b → a = b := by
    intro a b hab
    obtain ⟨x, _, hx⟩ := h (S b)
    rw [hx a hab, hx b rfl]
  obtain ⟨x, rfl, _⟩ := h v
  by_cases hxp : x = p
  · subst hxp
    refine ⟨q, by split_ifs with hq <;> simp_all, fun y hy => ?_⟩
    split_ifs at hy with h1 h2
    · exact h1.trans (inj _ _ hy).symm
    · exact h2
    · exact absurd (inj _ _ hy) h1
  · by_cases hxq : x = q
    · subst hxq
      refine ⟨p, by simp, fun y hy => ?_⟩
      split_ifs at hy with h1 h2
      · exact h1
      · exact absurd (inj _ _ hy).symm hxp
      · exact absurd (inj _ _ hy) h2
    · refine ⟨x, by simp [hxp, hxq], fun y hy => ?_⟩
      split_ifs at hy with h1 h2
      · exact absurd (inj _ _ hy).symm hxq
      · exact absurd (inj _ _ hy).symm hxp
      · exact inj _ _ hy

/-- Four bytes written as one window word, the lowest in the lowest bits (20_memory.md R64). -/
theorem load_storeWord {st st' : Store} {w y : Nat} {word : Word} {s : State}
    (hst : st ≠ .perm) :
    (storeWord st w word s).load st' y =
      if st' = st ∧ 4 * w ≤ y ∧ y < 4 * w + 4 then byteOf word (y - 4 * w) else s.load st' y := by
  unfold storeWord
  by_cases h : st' = st ∧ 4 * w ≤ y ∧ y < 4 * w + 4
  · obtain ⟨rfl, h1, h2⟩ := h
    rw [if_pos ⟨rfl, h1, h2⟩]
    obtain rfl | rfl | rfl | rfl : y = 4 * w ∨ y = 4 * w + 1 ∨ y = 4 * w + 2 ∨ y = 4 * w + 3 := by omega
    · rw [load_storeByte_other _ (by omega), load_storeByte_other _ (by omega), load_storeByte_other _ (by omega),
        load_storeByte_ram hst]
      simp
    · rw [load_storeByte_other _ (by omega), load_storeByte_other _ (by omega), load_storeByte_ram hst]
      simp
    · rw [load_storeByte_other _ (by omega), load_storeByte_ram hst]
      simp
    · rw [load_storeByte_ram hst]
      simp
  · rw [if_neg h]
    have : ∀ n, n < 4 → ¬(st' = st ∧ y = 4 * w + n) := by
      rintro n hn ⟨rfl, rfl⟩
      exact h ⟨rfl, by omega, by omega⟩
    rw [load_storeByte_other _ (this 3 (by omega)), load_storeByte_other _ (this 2 (by omega)),
      load_storeByte_other _ (this 1 (by omega)), load_storeByte_other _ (by simpa using this 0 (by omega))]

/-- The four bytes of a word, put together again, are the word (20_memory.md R64). -/
theorem byteOf_append (v : Word) : byteOf v 3 ++ byteOf v 2 ++ byteOf v 1 ++ byteOf v 0 = v := by
  apply BitVec.eq_of_getLsbD_eq
  intro i hi
  simp only [byteOf, BitVec.getLsbD_append, BitVec.getLsbD_extractLsb']
  have drop : ∀ n j, j < 8 → i = 8 * n + j → (decide (j < 8) && v.getLsbD (8 * n + j)) = v.getLsbD i := by
    intro n j hj hi'
    simp [hj, hi']
  split_ifs with h1 h2 h3
  · exact drop 0 i h1 (by omega)
  · exact drop 1 (i - 8) h2 (by omega)
  · exact drop 2 (i - 8 - 8) h3 (by omega)
  · exact drop 3 (i - 8 - 8 - 8) (by omega) (by omega)

theorem storesWf_storeWord {st : Store} {w : Nat} {word : Word} {s : State} (hx : 4 * w + 4 ≤ s.storeSize st)
    (h : StoresWf s) : StoresWf (storeWord st w word s) := by
  have size : ∀ (x : Nat) (v : Byte) (s : State), (storeByte st x v s).storeSize st = s.storeSize st := by
    intro x v s; cases st <;> rfl
  unfold storeWord
  refine storesWf_storeByte (by simp only [size]; omega) (storesWf_storeByte (by simp only [size]; omega)
    (storesWf_storeByte (by simp only [size]; omega) (storesWf_storeByte (by omega) h)))

/-- While BUSY = 1 a gated write only sets OVR (70_reset_and_hazards.md R200). -/
theorem gated_busy {write : State → State} {s : State} (h : s.busy = true) : gated write s = { s with ovr := true } := by
  simp [gated, h]

/-- While BUSY = 0 a gated write is performed. -/
theorem gated_idle {write : State → State} {s : State} (h : s.busy = false) : gated write s = write s := by
  simp [gated, h]

/-- BUSY is e.phase != IDLE (10_state.md R25). -/
theorem busy_eq_false_iff {s : State} : s.busy = false ↔ s.phase = .idle := by
  simp [State.busy]

theorem busy_eq_true_iff {s : State} : s.busy = true ↔ s.phase ≠ .idle := by
  simp [State.busy]

/-- Everything issuing a command can do (60_exceptions.md R160). -/
theorem issue_cases (code : Option Code) (start : State → State) (s : State) :
    (s.phase ≠ .idle ∧ issue code start s = { s with ovr := true }) ∨
    (s.phase = .idle ∧ ∃ r, code = some r ∧ issue code start s = complete r s) ∨
    (s.phase = .idle ∧ code = none ∧ issue code start s = start s) := by
  unfold issue
  by_cases h : s.phase = .idle
  · rw [gated_idle (busy_eq_false_iff.2 h)]
    cases code with
    | none => exact .inr (.inr ⟨h, rfl, rfl⟩)
    | some r => exact .inr (.inl ⟨h, r, rfl, rfl⟩)
  · rw [gated_busy (busy_eq_true_iff.2 h)]
    exact .inl ⟨h, rfl⟩

/-- Byte `n` of a window word, as a number (20_memory.md R64). -/
theorem byteOf_toNat (v : Word) (n : Nat) : (byteOf v n).toNat = v.toNat / 2 ^ (8 * n) % 256 := by
  simp [byteOf, BitVec.extractLsb'_toNat, Nat.shiftRight_eq_div_pow]

/-- A word of KEY or DATA reads back as it was written (20_memory.md R64, R75). -/
theorem loadWord_storeWord {st : Store} {w : Nat} {v : Word} {s : State} (hst : st ≠ .perm) :
    loadWord (storeWord st w v s) st w = v := by
  unfold loadWord
  rw [load_storeWord hst, load_storeWord hst, load_storeWord hst, load_storeWord hst,
    if_pos ⟨rfl, by omega, by omega⟩, if_pos ⟨rfl, by omega, by omega⟩, if_pos ⟨rfl, by omega, by omega⟩,
    if_pos ⟨rfl, by omega, by omega⟩]
  simp only [Nat.add_sub_cancel_left, Nat.sub_self]
  exact byteOf_append v

/-- Writing a word of KEY changes the cells of KEY and nothing else. -/
theorem storeWord_key_eq (w : Nat) (v : Word) (s : State) :
    storeWord .key w v s = { s with keyStore := (storeWord .key w v s).keyStore } := rfl

/-- Writing a word of DATA changes the cells of DATA and nothing else. -/
theorem storeWord_data_eq (w : Nat) (v : Word) (s : State) :
    storeWord .data w v s = { s with dataStore := (storeWord .data w v s).dataStore } := rfl

/-- A byte read depends on the store's cells and the epoch alone. -/
theorem load_congr {s t : State} (st : Store) (x : Nat) (h1 : t.epoch = s.epoch) (h2 : t.cells st = s.cells st) :
    t.load st x = s.load st x := by
  unfold State.load
  rw [h1, h2]

end Sys2Proof.Machine
end

