-- ==== Sys2Proof/Laws/Bus.lean ====
section
/-! SUPPORT. Decoding an offset, and the cases of a host access. -/

namespace Sys2Proof.Machine

/-- What a location says of its offset (10_state.md R22). -/
def LocAt (size a : Nat) : Loc → Prop
  | .misaligned => a % 4 ≠ 0
  | .cmd => a = 0x00000
  | .status => a = 0x00004
  | .ctrl => a = 0x00008
  | .keyLen => a = 0x0000C
  | .dataLen => a = 0x00010
  | .mxBase => a = 0x00014
  | .mxExp => a = 0x00018
  | .mxMod => a = 0x0001C
  | .mxResult => a = 0x00020
  | .cfg => a = 0x00024
  | .key w => w < 64 ∧ a = 0x00100 + 4 * w
  | .perm w => w < 64 ∧ a = 0x00200 + 4 * w
  | .data w => 4 * w < size ∧ a = 0x10000 + 4 * w
  | .unmapped => a % 4 = 0 ∧ 0x00028 ≤ a ∧ ¬(0x00100 ≤ a ∧ a ≤ 0x002FC) ∧ ¬(0x10000 ≤ a ∧ a < 0x10000 + size)

/-- The decoder of offsets is right about the offset. -/
theorem locate_spec (size : Nat) (off : Offset) : LocAt size off.toNat (locate size off) := by
  unfold locate locateNat keyBase permBase dataBase
  generalize off.toNat = a
  by_cases h0 : a % 4 ≠ 0
  · rw [if_pos h0]; exact h0
  rw [if_neg h0]
  by_cases h1 : a = 0
  · rw [if_pos h1]; exact h1
  rw [if_neg h1]
  by_cases h2 : a = 4
  · rw [if_pos h2]; exact h2
  rw [if_neg h2]
  by_cases h3 : a = 8
  · rw [if_pos h3]; exact h3
  rw [if_neg h3]
  by_cases h4 : a = 12
  · rw [if_pos h4]; exact h4
  rw [if_neg h4]
  by_cases h5 : a = 16
  · rw [if_pos h5]; exact h5
  rw [if_neg h5]
  by_cases h6 : a = 20
  · rw [if_pos h6]; exact h6
  rw [if_neg h6]
  by_cases h7 : a = 24
  · rw [if_pos h7]; exact h7
  rw [if_neg h7]
  by_cases h8 : a = 28
  · rw [if_pos h8]; exact h8
  rw [if_neg h8]
  by_cases h9 : a = 32
  · rw [if_pos h9]; exact h9
  rw [if_neg h9]
  by_cases h10 : a = 36
  · rw [if_pos h10]; exact h10
  rw [if_neg h10]
  by_cases g0 : 256 ≤ a ∧ a ≤ 508
  · rw [if_pos g0]; exact ⟨by omega, by omega⟩
  rw [if_neg g0]
  by_cases g1 : 512 ≤ a ∧ a ≤ 764
  · rw [if_pos g1]; exact ⟨by omega, by omega⟩
  rw [if_neg g1]
  by_cases g2 : 65536 ≤ a ∧ a < 65536 + size
  · rw [if_pos g2]; exact ⟨by omega, by omega⟩
  rw [if_neg g2]
  exact ⟨by omega, by omega, by omega, g2⟩

/-- No two locations share an offset, for a data store that ends on a word. -/
theorem locAt_unique {size a : Nat} (hs : size % 4 = 0) {l l' : Loc} (h : LocAt size a l) (h' : LocAt size a l') :
    l = l' := by
  cases l <;> cases l' <;> simp only [LocAt] at h h' <;> first | rfl | (exfalso; omega) | (congr 1; omega)

theorem dbufSize_mod_four (s : State) : s.dbufSize % 4 = 0 := by
  simp [State.dbufSize, Config.dbufSize]

theorem dbufSize_le (s : State) : s.dbufSize ≤ 65536 := by
  have := s.cfg.dbufWords.isLt
  simp only [State.dbufSize, Config.dbufSize]
  omega

theorem dbufSize_pos (s : State) : 4 ≤ s.dbufSize := by
  simp only [State.dbufSize, Config.dbufSize]
  omega

/-- An offset decodes to the location that is right about it. -/
theorem locate_eq {s : State} {off : Offset} {l : Loc} (h : LocAt s.dbufSize off.toNat l) :
    locate s.dbufSize off = l :=
  locAt_unique (dbufSize_mod_four s) (locate_spec _ off) h

/-- The same for an offset given as a number. -/
theorem locate_ofNat {s : State} {a : Nat} {l : Loc} (h : LocAt s.dbufSize a l) (ha : a < 131072) :
    locate s.dbufSize (BitVec.ofNat 17 a) = l := by
  refine locate_eq ?_
  rwa [BitVec.toNat_ofNat, Nat.mod_eq_of_lt (by omega)]

theorem locate_mem_range {s : State} {w : Nat} (h : 4 * w < s.dbufSize) : 0x10000 + 4 * w < 131072 := by
  have := dbufSize_le s
  omega

/-- The word `w` of the KEY window (20_memory.md R64). -/
theorem locate_key (s : State) {w : Nat} (h : w < 64) :
    locate s.dbufSize (BitVec.ofNat 17 (0x00100 + 4 * w)) = .key w :=
  locate_ofNat (a := 0x00100 + 4 * w) (l := .key w) (And.intro h rfl) (by omega)

/-- The word `w` of the S window (20_memory.md R64). -/
theorem locate_perm (s : State) {w : Nat} (h : w < 64) :
    locate s.dbufSize (BitVec.ofNat 17 (0x00200 + 4 * w)) = .perm w :=
  locate_ofNat (a := 0x00200 + 4 * w) (l := .perm w) (And.intro h rfl) (by omega)

/-- The word `w` of the DATA window (20_memory.md R64). -/
theorem locate_data {s : State} {w : Nat} (h : 4 * w < s.dbufSize) :
    locate s.dbufSize (BitVec.ofNat 17 (0x10000 + 4 * w)) = .data w :=
  locate_ofNat (a := 0x10000 + 4 * w) (l := .data w) (And.intro h rfl) (locate_mem_range h)

/-- A write that does not go to CMD answers a next state. -/
theorem busWrite_other {off : Offset} {v : Word} {s : State} (h : locate s.dbufSize off ≠ .cmd) :
    busWrite off v s =
      .next (respondWrite (writeErr (locate s.dbufSize off)) (writeLoc v s (locate s.dbufSize off))) := by
  unfold busWrite
  split <;> simp_all

theorem busWrite_cmd {off : Offset} {v : Word} {s : State} (h : locate s.dbufSize off = .cmd) :
    busWrite off v s = answerWrite false (writeCmd v s) := by
  unfold busWrite
  rw [h]

/-- A command always answers a next state. -/
theorem exec_next (i : Instr) (s : State) : ∃ t, exec i s = .next t := by
  cases i <;> exact ⟨_, rfl⟩

/-- A write to CMD always answers a next state. -/
theorem writeCmd_next (v : Word) (s : State) : ∃ t, writeCmd v s = .next t := by
  unfold writeCmd
  split
  · exact exec_next _ s
  · exact ⟨_, rfl⟩

/-- Every host access answers a next state: the block never stops on one (60_exceptions.md R164). -/
theorem busAccess_next (a : Access) (s : State) : ∃ t, busAccess a s = .next t := by
  cases a with
  | read off => exact ⟨_, rfl⟩
  | write off v =>
    by_cases h : locate s.dbufSize off = .cmd
    · obtain ⟨t, ht⟩ := writeCmd_next v s
      exact ⟨respondWrite false t, by simp [busAccess, busWrite_cmd h, ht, answerWrite]⟩
    · exact ⟨_, by simp only [busAccess]; exact busWrite_other h⟩

/-- Everything a write to a location other than CMD can do (20_memory.md R69; 70_reset_and_hazards.md R200). -/
theorem writeLoc_cases (s : State) (v : Word) (l : Loc) :
    writeLoc v s l = s ∨
    (l = .status ∧ writeLoc v s l = writeStatus v s) ∨
    (l = .ctrl ∧ writeLoc v s l = writeCtrl v s) ∨
    (s.busy = true ∧
      (l = .keyLen ∨ l = .dataLen ∨ l = .mxBase ∨ l = .mxExp ∨ l = .mxMod ∨ (∃ w, l = .key w) ∨ ∃ w, l = .data w) ∧
      writeLoc v s l = { s with ovr := true }) ∨
    (s.busy = false ∧ ∃ a b c d e,
      writeLoc v s l = { s with keyLen := a, dataLen := b, mxBase := c, mxExp := d, mxMod := e }) ∨
    (s.busy = false ∧ ∃ w, l = .key w ∧ writeLoc v s l = storeWord .key w v s) ∨
    (s.busy = false ∧ ∃ w, l = .data w ∧ writeLoc v s l = storeWord .data w v s) := by
  rcases Bool.eq_false_or_eq_true s.busy with hb | hb
  · cases l
    all_goals first
      | exact .inl rfl
      | exact .inr (.inl ⟨rfl, rfl⟩)
      | exact .inr (.inr (.inl ⟨rfl, rfl⟩))
      | exact .inr (.inr (.inr (.inl ⟨hb, by simp, by rw [writeLoc, gated_busy hb]⟩)))
  · cases l
    case key => exact .inr (.inr (.inr (.inr (.inr (.inl ⟨hb, _, rfl, by rw [writeLoc, gated_idle hb]⟩)))))
    case data => exact .inr (.inr (.inr (.inr (.inr (.inr ⟨hb, _, rfl, by rw [writeLoc, gated_idle hb]⟩)))))
    all_goals first
      | exact .inl rfl
      | exact .inr (.inl ⟨rfl, rfl⟩)
      | exact .inr (.inr (.inl ⟨rfl, rfl⟩))
      | exact .inr (.inr (.inr (.inr (.inl ⟨hb, _, _, _, _, _, by rw [writeLoc, gated_idle hb]⟩))))

/-- Everything MODEXP's issue step can do while BUSY = 0 (41_modexp.md R140). -/
theorem mxIssue_cases (s : State) :
    (∃ r, mxIssue s = { s with mxResult := r, err := 4#4, done := true, phase := .idle }) ∨
    (∃ r m b e a, mxIssue s =
      { s with mxResult := r, m := m, b := b, e := e, acc := a, err := 0#4, done := true, phase := .idle }) ∨
    (∃ m b e a, mxIssue s = { s with m := m, b := b, e := e, acc := a, phase := .mx }) := by
  unfold mxIssue mxStart
  split_ifs
  · exact .inl ⟨_, rfl⟩
  · exact .inr (.inl ⟨_, _, _, _, _, rfl⟩)
  · exact .inr (.inr ⟨_, _, _, _, rfl⟩)

end Sys2Proof.Machine
end

