-- ==== Sys2Proof/Laws/Decode.lean ====
section
/-! SUPPORT. The fields of a command word as numbers (30_encoding.md R90), for proofs about decoding. -/

namespace Sys2Proof

theorem toNat_rsvField (v : Word) : (rsvField v).toNat = v.toNat / 256 := by
  have := v.isLt
  simp [rsvField, Nat.shiftRight_eq_div_pow]
  omega

theorem toNat_opField (v : Word) : (opField v).toNat = v.toNat % 256 := by
  simp [opField]

theorem rsvField_eq_zero_iff (v : Word) : rsvField v = 0#24 ↔ v.toNat / 256 = 0 := by
  rw [← BitVec.toNat_inj, toNat_rsvField]
  rfl

theorem opField_eq_iff (v : Word) (o : Byte) : opField v = o ↔ v.toNat % 256 = o.toNat := by
  rw [← BitVec.toNat_inj, toNat_opField]

/-- A word is its two fields. -/
theorem word_eq_iff (v : Word) (n : Nat) (hn : n < 256) :
    v = BitVec.ofNat 32 n ↔ v.toNat / 256 = 0 ∧ v.toNat % 256 = n := by
  rw [← BitVec.toNat_inj, BitVec.toNat_ofNat]
  omega

end Sys2Proof
end

