-- ==== Sys2Proof/Laws/Engine.lean ====
section
/-! SUPPORT. What the engine's turn can do: one inversion lemma, and the bodies' effects on the stores. -/

namespace Sys2Proof.Machine

/-- Everything the engine's turn can do. -/
theorem engineTurn_cases {s t : State} (h : engineTurn s = .next t) :
    (s.phase = .idle ∧ t = s) ∨
    (s.phase = .ksa ∧ s.c.toNat < 256 ∧ s.kidx.toNat < 256 ∧ t = ksaBody s) ∨
    (s.phase = .prga ∧ s.k.toNat < s.dataLen.toNat ∧ s.k.toNat < s.dbufSize ∧ t = prgaBody s) ∨
    (s.phase = .mx ∧ s.e ≠ 0#32 ∧ s.m ≠ 0#32 ∧ t = mxBody s) := by
  unfold engineTurn at h
  split at h
  · next hp => cases h; exact .inl ⟨hp, rfl⟩
  · next hp =>
    unfold ksaStep at h
    split at h
    · next hr => cases h; exact .inr (.inl ⟨hp, hr.1, hr.2, rfl⟩)
    · cases h
  · next hp =>
    unfold prgaStep at h
    split at h
    · next hr => cases h; exact .inr (.inr (.inl ⟨hp, hr.1, hr.2, rfl⟩))
    · cases h
  · next hp =>
    unfold mxStep at h
    split at h
    · next hr => cases h; exact .inr (.inr (.inr ⟨hp, hr.1, hr.2, rfl⟩))
    · cases h

@[simp] theorem permAt_ksaEnd (s : State) (x : Byte) : (ksaEnd s).permAt x = s.permAt x := by
  unfold ksaEnd
  split_ifs <;> rfl

@[simp] theorem permAt_prgaEnd (s : State) (x : Byte) : (prgaEnd s).permAt x = s.permAt x := by
  unfold prgaEnd
  split_ifs <;> rfl

@[simp] theorem load_prgaEnd (s : State) (st : Store) (x : Nat) : (prgaEnd s).load st x = s.load st x := by
  unfold prgaEnd
  split_ifs <;> cases st <;> rfl

/-- The state before a KSA step's end, with S's cells left as a name. -/
theorem ksaAdvance_ksaSwap_eq (s : State) :
    ksaAdvance (ksaSwap s) = { s with
      permStore := (ksaSwap s).permStore, j := ksaJ s, kidx := nextKidx s.keyLen s.kidx, c := s.c + 1#9 } := rfl

/-- The state before a PRGA step's end, with the cells of S and DATA left as names. -/
theorem prgaCombine_prgaSwap_eq (s : State) :
    prgaCombine (prgaSwap s) = { s with
      permStore := (prgaSwap s).permStore, dataStore := (prgaCombine (prgaSwap s)).dataStore,
      i := prgaI s, j := prgaJ s, k := s.k + 1#17 } := rfl

/-- S after a KSA step (40_rc4.md R115). -/
theorem permAt_ksaBody {s : State} (hp : Memory.wf .perm 256 s.permStore = true) (x : Byte) :
    (ksaBody s).permAt x = swapAt s.permAt (s.c.setWidth 8) (ksaJ s) x :=
  (permAt_ksaEnd _ x).trans (permAt_swapPerm hp)

/-- S after the swap of a PRGA step (40_rc4.md R118). -/
theorem permAt_prgaSwap {s : State} (hp : Memory.wf .perm 256 s.permStore = true) (x : Byte) :
    (prgaSwap s).permAt x = swapAt s.permAt (prgaI s) (prgaJ s) x :=
  permAt_swapPerm hp

@[simp] theorem permAt_prgaCombine (s : State) (x : Byte) : (prgaCombine s).permAt x = s.permAt x :=
  load_storeByte_other (st := .data) (st' := .perm) (x := s.k.toNat)
    (v := s.load .data s.k.toNat ^^^ prgaKs s) s (by simp)

/-- S after a PRGA step (40_rc4.md R118). -/
theorem permAt_prgaBody {s : State} (hp : Memory.wf .perm 256 s.permStore = true) (x : Byte) :
    (prgaBody s).permAt x = swapAt s.permAt (prgaI s) (prgaJ s) x := by
  simp [prgaBody, permAt_prgaSwap hp]

/-- The keystream byte of a PRGA step, from the state before it (40_rc4.md R118). -/
theorem prgaKs_prgaSwap {s : State} (hp : Memory.wf .perm 256 s.permStore = true) :
    prgaKs (prgaSwap s) =
      (let S := swapAt s.permAt (prgaI s) (prgaJ s)
       S (S (prgaI s) + S (prgaJ s))) := by
  have hi : (prgaSwap s).i = prgaI s := rfl
  have hj : (prgaSwap s).j = prgaJ s := rfl
  simp only [prgaKs, hi, hj, permAt_prgaSwap hp]

/-- DATA after a PRGA step (40_rc4.md R118). -/
theorem load_data_prgaBody (s : State) (x : Nat) :
    (prgaBody s).load .data x =
      if x = s.k.toNat then s.load .data s.k.toNat ^^^ prgaKs (prgaSwap s) else s.load .data x := by
  have hk : (prgaSwap s).k = s.k := rfl
  have hd : ∀ y, (prgaSwap s).load .data y = s.load .data y := fun y => load_swapPerm_other _ (by decide)
  have hc : ∀ y, (prgaCombine (prgaSwap s)).load .data y =
      (storeByte .data s.k.toNat (s.load .data s.k.toNat ^^^ prgaKs (prgaSwap s)) (prgaSwap s)).load .data y := by
    intro y
    unfold prgaCombine
    rw [hk, hd]
    rfl
  rw [prgaBody, load_prgaEnd, hc]
  split_ifs with hx
  · subst hx
    exact load_storeByte_ram (by decide) _ _ _
  · exact (load_storeByte_other _ (by simp [hx])).trans (hd x)

/-- A KSA step changes no byte of KEY or DATA (40_rc4.md R115). -/
theorem load_ksaBody_other {st : Store} (s : State) (x : Nat) (h : st ≠ .perm) :
    (ksaBody s).load st x = s.load st x := by
  have he : ∀ u : State, (ksaEnd u).load st x = u.load st x := by
    intro u
    unfold ksaEnd
    split_ifs <;> cases st <;> rfl
  have ha : ∀ u : State, (ksaAdvance u).load st x = u.load st x := by
    intro u
    cases st <;> rfl
  rw [ksaBody, he, ha, ksaSwap, load_swapPerm_other _ h]
  cases st <;> rfl

/-- A KSA step changes no byte beyond the 256 of S. -/
theorem load_perm_ksaBody_beyond (s : State) {x : Nat} (h : 256 ≤ x) :
    (ksaBody s).load .perm x = s.load .perm x := by
  have he : ∀ u : State, (ksaEnd u).load .perm x = u.load .perm x := by
    intro u
    unfold ksaEnd
    split_ifs <;> rfl
  have ha : ∀ u : State, (ksaAdvance u).load .perm x = u.load .perm x := fun _ => rfl
  rw [ksaBody, he, ha, ksaSwap, load_swapPerm_beyond _ h]
  rfl

theorem load_prgaCombine_other {st : Store} (s : State) (x : Nat) (h : st ≠ .data) :
    (prgaCombine s).load st x = s.load st x := by
  have hk : ∀ (u : State) (k : BitVec 17), ({ u with k := k } : State).load st x = u.load st x := by
    intro u k
    cases st <;> rfl
  rw [prgaCombine, hk]
  exact load_storeByte_other s (by simp [h])

/-- A PRGA step changes no byte of KEY (40_rc4.md R118). -/
theorem load_key_prgaBody (s : State) (x : Nat) : (prgaBody s).load .key x = s.load .key x := by
  rw [prgaBody, load_prgaEnd, load_prgaCombine_other _ _ (by decide), prgaSwap, load_swapPerm_other _ (by decide)]
  rfl

/-- A PRGA step changes no byte beyond the 256 of S. -/
theorem load_perm_prgaBody_beyond (s : State) {x : Nat} (h : 256 ≤ x) :
    (prgaBody s).load .perm x = s.load .perm x := by
  rw [prgaBody, load_prgaEnd, load_prgaCombine_other _ _ (by decide), prgaSwap, load_swapPerm_beyond _ h]
  rfl

/-- An MX step changes no byte of any store (41_modexp.md R147). -/
theorem load_mxBody (s : State) (st : Store) (x : Nat) : (mxBody s).load st x = s.load st x := by
  unfold mxBody mxEnd
  split_ifs <;> cases st <;> rfl

/-- A KSA step keeps S in canonical form. -/
theorem wf_perm_ksaBody {s : State} (h : Memory.wf .perm 256 s.permStore = true) :
    Memory.wf .perm 256 (ksaBody s).permStore = true := by
  have he : (ksaBody s).permStore = (ksaSwap s).permStore := by
    unfold ksaBody
    rw [ksaAdvance_ksaSwap_eq]
    generalize (ksaSwap s).permStore = P
    unfold ksaEnd
    split_ifs <;> rfl
  rw [he]
  exact storeByte_perm_wf (BitVec.isLt _) (storeByte_perm_wf (BitVec.isLt _) h)

/-- A PRGA step keeps S in canonical form. -/
theorem wf_perm_prgaBody {s : State} (h : Memory.wf .perm 256 s.permStore = true) :
    Memory.wf .perm 256 (prgaBody s).permStore = true := by
  have he : (prgaBody s).permStore = (prgaSwap s).permStore := by
    unfold prgaBody
    rw [prgaCombine_prgaSwap_eq]
    generalize (prgaCombine (prgaSwap s)).dataStore = D
    generalize (prgaSwap s).permStore = P
    unfold prgaEnd
    split_ifs <;> rfl
  rw [he]
  exact storeByte_perm_wf (BitVec.isLt _) (storeByte_perm_wf (BitVec.isLt _) h)

end Sys2Proof.Machine
end

