-- ==== Sys2Proof/Laws/PerInstr.lean ====
section
/-! SUPPORT. What holds of every command as syntax, one lemma per constructor. -/

namespace Sys2Proof.Laws.OpcodeTable

/-- The command is well formed, its word is legal, and the word is its opcode under a zero reserved field
(30_encoding.md R90 to R93). -/
def Statement (i : Instr) : Prop :=
  i.wellFormed = true ∧ wordWellFormed (encode i) = true ∧ opField (encode i) = opcode i ∧
    rsvField (encode i) = 0#24

theorem rc4Cipher : Statement .rc4Cipher := by unfold Statement; decide
theorem rc4Schedule : Statement .rc4Schedule := by unfold Statement; decide
theorem rc4Generate : Statement .rc4Generate := by unfold Statement; decide
theorem modexp : Statement .modexp := by unfold Statement; decide

end Sys2Proof.Laws.OpcodeTable
end

