-- ==== Sys2Proof/Laws/Pure.lean ====
section
/-! SUPPORT. The pure functions: one iteration more, and bit lengths (40_rc4.md R119; 41_modexp.md R144). -/

namespace Sys2Proof.Machine

theorem ksaLoop_succ (key : Nat → Byte) (len n : Nat) :
    ksaLoop key len (n + 1) =
      (let p := ksaLoop key len n
       let j := p.2 + p.1 (BitVec.ofNat 8 n) + key (n % len)
       (swapAt p.1 (BitVec.ofNat 8 n) j, j)) := rfl

theorem prgaLoop_succ (S : Byte → Byte) (n : Nat) :
    prgaLoop S (n + 1) =
      (let p := prgaLoop S n
       let i := p.2.1 + 1#8
       let j := p.2.2 + p.1 i
       (swapAt p.1 i j, i, j)) := rfl

/-- Halving a nonzero number takes one bit off. -/
theorem bitlen_half {x : Nat} (h : x ≠ 0) : bitlen x = bitlen (x / 2) + 1 := by
  unfold bitlen
  rw [if_neg h, Nat.log2_def]
  by_cases h2 : 2 ≤ x
  · rw [if_pos h2, if_neg (by omega)]
  · rw [if_neg h2, if_pos (by omega)]

theorem bitlen_le {x n : Nat} (h : x < 2 ^ n) : bitlen x ≤ n := by
  unfold bitlen
  split_ifs with h0
  · omega
  · exact Nat.succ_le_of_lt ((Nat.log2_lt h0).2 h)

theorem bitlen_eq_zero_iff {x : Nat} : bitlen x = 0 ↔ x = 0 := by
  unfold bitlen
  split_ifs with h <;> simp [h]

end Sys2Proof.Machine
end

