-- ==== Sys2Proof/Laws/Step.lean ====
section
/-! SUPPORT. What one step can be, and runs of several steps. -/

namespace Sys2Proof.Machine

@[simp] theorem step_presenting (s : State) (a : Access) : step (s.presenting a) = busAccess a s := rfl

@[simp] theorem step_resetting (s : State) (p : Option Access) : step (s.resetting p) = .next (resetStep p s) := rfl

theorem step_alone {s : State} (h : s.inputs = []) : step s = engineTurn s := by
  unfold step takeStep
  rw [h]

/-- Everything one step can be: the engine's turn, a host access, or a reset cycle. -/
theorem step_cases {s t : State} (h : step s = .next t) :
    (EngineNext s ∧ ∃ rest, engineTurn { s with inputs := rest } = .next t) ∨
    (∃ a rest, s.inputs = .access a :: rest ∧ busAccess a { s with inputs := rest } = .next t) ∨
    (∃ p rest, s.inputs = .reset p :: rest ∧ t = resetStep p { s with inputs := rest }) := by
  unfold step takeStep at h
  split at h
  · next hi => exact .inl ⟨.inl hi, [], by rwa [← hi]⟩
  · next ev rest hi =>
    cases ev with
    | access a => exact .inr (.inl ⟨a, rest, hi, h⟩)
    | engine => exact .inl ⟨.inr ⟨rest, hi⟩, rest, h⟩
    | reset p => cases h; exact .inr (.inr ⟨p, rest, hi, rfl⟩)

@[simp] theorem run_zero (s : State) : run 0 s = .next s := rfl

theorem run_succ {n : Nat} {s t : State} (h : step s = .next t) :
    run (n + 1) s = run n t := by
  simp only [run, h]

/-- `run` is the host's run of `core`. -/
theorem run_eq_core_run (n : Nat) (s : State) : run n s = Host.Core.run core n s := by
  induction n generalizing s with
  | zero => rfl
  | succ n ih =>
    have hc : core.step s = step s := rfl
    simp only [run, Host.Core.run, hc]
    cases step s with
    | next t => exact ih t
    | fault f => rfl
    | refused r => rfl

/-- A run that goes on has a first step. -/
theorem run_succ_inv {n : Nat} {s t : State} (h : run (n + 1) s = .next t) :
    ∃ u, step s = .next u ∧ run n u = .next t := by
  cases hs : step s with
  | next u => exact ⟨u, rfl, by rwa [run_succ hs] at h⟩
  | fault r => simp [run, hs] at h
  | refused r => simp [run, hs] at h

/-- A run of `m + n` steps is a run of `m` and then one of `n`. -/
theorem run_add {m n : Nat} {s t : State} (h : run m s = .next t) :
    run (m + n) s = run n t := by
  induction m generalizing s with
  | zero => cases h; rw [Nat.zero_add]
  | succ m ih =>
    obtain ⟨u, hu, hr⟩ := run_succ_inv h
    rw [Nat.add_right_comm, run_succ hu]
    exact ih hr

/-- One more step at the end of a run. -/
theorem run_snoc {n : Nat} {s t u : State} (h : run n s = .next t) (h' : step t = .next u) :
    run (n + 1) s = .next u := by
  rw [run_add h, run_succ h']
  rfl

theorem step_engine {s : State} {rest : List Event} (h : s.inputs = .engine :: rest) :
    step s = engineTurn { s with inputs := rest } := by
  simp [step, takeStep, h, runEvent]

theorem step_access {s : State} {a : Access} {rest : List Event} (h : s.inputs = .access a :: rest) :
    step s = busAccess a { s with inputs := rest } := by
  simp [step, takeStep, h, runEvent]

theorem step_reset {s : State} {p : Option Access} {rest : List Event} (h : s.inputs = .reset p :: rest) :
    step s = .next (resetStep p { s with inputs := rest }) := by
  simp [step, takeStep, h, runEvent]

end Sys2Proof.Machine
end

