-- ==== Sys2Proof/Machine/HostScript.lean ====
section
/-! DEFINITION. The host-script statements and pseudo-instructions, each expanded to its list of events
(30_encoding.md R100, R101). The symbolic offsets are AddressMap's. -/

namespace Sys2Proof.Machine

/-- `wr OFF, VAL`: BusWrite(OFF, VAL) (30_encoding.md R100). -/
def scriptWr (off : Offset) (v : Word) : List Event := [.access (.write off v)]

/-- `rd OFF`: BusRead(OFF) (30_encoding.md R100). -/
def scriptRd (off : Offset) : List Event := [.access (.read off)]

/-- `cmd M` (30_encoding.md R101). -/
def scriptCmd (i : Instr) : List Event := scriptWr cmdOff (encode i)

/-- `wait`, as `n` reads of STATUS with the engine's turn before each: the host's loop ends with the first read whose
bit 0 is 0, and no rule fixes `n` (30_encoding.md R101; 70_reset_and_hazards.md R206; log entry 17). -/
def scriptWait : Nat → List Event
  | 0 => []
  | n + 1 => .engine :: .access (.read statusOff) :: scriptWait n

/-- `clr`: clears DONE and OVR (30_encoding.md R101). -/
def scriptClr : List Event := scriptWr statusOff 0x00000006#32

/-- The word of four bytes, the first in the lowest bits (30_encoding.md R101; 20_memory.md R64). -/
def packWord (b0 b1 b2 b3 : Byte) : Word := b3 ++ b2 ++ b1 ++ b0

/-- The words `w`, `w+1`, … of a window with the given bytes, missing bytes as 0x00 (30_encoding.md R101). -/
def loadBytes (off : Nat → Offset) : Nat → List Byte → List Event
  | _, [] => []
  | w, [b0] => scriptWr (off w) (packWord b0 0#8 0#8 0#8)
  | w, [b0, b1] => scriptWr (off w) (packWord b0 b1 0#8 0#8)
  | w, [b0, b1, b2] => scriptWr (off w) (packWord b0 b1 b2 0#8)
  | w, b0 :: b1 :: b2 :: b3 :: rest => scriptWr (off w) (packWord b0 b1 b2 b3) ++ loadBytes off (w + 1) rest

/-- `ldkey b0 b1 …` (30_encoding.md R101). -/
def scriptLdkey (bytes : List Byte) : List Event := loadBytes keyOff 0 bytes

/-- `lddata b0 b1 …` (30_encoding.md R101). -/
def scriptLddata (bytes : List Byte) : List Event := loadBytes dataOff 0 bytes

/-- `ldmx B, E, M` (30_encoding.md R101). -/
def scriptLdmx (base exp mod : Word) : List Event :=
  scriptWr mxBaseOff base ++ scriptWr mxExpOff exp ++ scriptWr mxModOff mod

end Sys2Proof.Machine
end

