-- ==== Sys2Proof/Tests/Slice0.lean ====
section
/-! SUPPORT. The model's own tests: expected values are those of spec/95_test_vectors.md (V<n>, P<n>) or of a rule, and
for every statement with hypotheses a concrete instance that meets them (`witness_…`). -/

open Sys2Proof Sys2Proof.Machine

namespace Sys2Proof.Tests

/-! ## Helpers -/

/-- `p` of the state after one step; false if the step stops. -/
def after (s : State) (p : State → Bool) : Bool :=
  match step s with
  | .next t => p t
  | .fault _ => false
  | .refused _ => false

/-- The start of V1 and V31: KEY = 4B 65 79, DATA begins 50 6C, DBUF_SIZE = 64. -/
def idle : State :=
  { State.reset with
    keyLen := 3#9, dataLen := 2#17
    keyStore := [(0, 0x4B#8), (1, 0x65#8), (2, 0x79#8), (3, 0x00#8)]
    dataStore := [(0, 0x50#8), (1, 0x6C#8), (2, 0x61#8), (3, 0x69#8)] }

/-- A running schedule at iteration `c` with index `j` and key index `kidx`; S is the identity. -/
def ksaAt (opc : Byte) (c kidx : BitVec 9) (j : Byte) : State :=
  { idle with phase := .ksa, op := opc, c := c, kidx := kidx, j := j }

/-- A running generation at position `k` of 2. -/
def prgaAt (k : BitVec 17) : State := { idle with phase := .prga, op := opGenerate, k := k }

/-- A running MODEXP: V22, with the given position. -/
def mxAt (acc : BitVec 64) (b e : Word) : State :=
  { idle with
    phase := .mx, mxBase := 4#32, mxExp := 13#32, mxMod := 497#32, m := 497#32, acc := acc, b := b, e := e }

/-- The largest machine: DBUF_SIZE = 65536. -/
def big : State := State.afterReset { dbufWords := 16383, base := 0, lat := 1 }

/-- The smallest machine: DBUF_SIZE = 4. -/
def small : State := State.afterReset { dbufWords := 0, base := 0, lat := 1 }

/-! ## Well-formedness: an ill-formed word for each check -/

theorem test_wf_rsvClear_refuses : rsvClear 0x00000101#32 = false ∧ rsvClear 0x80000001#32 = false := by decide
theorem test_wf_opDefined_refuses : opDefined 0x00000000#32 = false ∧ opDefined 0x00000004#32 = false := by decide
theorem test_wf_word_refuses :
    wordWellFormed 0x00000101#32 = false ∧ wordWellFormed 0x00000011#32 = false ∧
    wordWellFormed 0xFFFFFFFF#32 = false := by decide
theorem test_wf_every_command :
    Instr.rc4Cipher.wellFormed = true ∧ Instr.rc4Schedule.wellFormed = true ∧
    Instr.rc4Generate.wellFormed = true ∧ Instr.modexp.wellFormed = true := by decide

/-! ## Decoding: each word bit by bit from the encoding of spec/opcode_table.json, RSV then OP -/

theorem test_decode_rc4Cipher :
    decode (0b000000000000000000000000#24 ++ 0b00000001#8) = .command .rc4Cipher := by decide
theorem test_decode_rc4Schedule :
    decode (0b000000000000000000000000#24 ++ 0b00000010#8) = .command .rc4Schedule := by decide
theorem test_decode_rc4Generate :
    decode (0b000000000000000000000000#24 ++ 0b00000011#8) = .command .rc4Generate := by decide
theorem test_decode_modexp :
    decode (0b000000000000000000000000#24 ++ 0b00010000#8) = .command .modexp := by decide

/-- V18: both grounds of illegality, by name. -/
theorem test_decode_bad :
    decode 0x00000000#32 = .bad (.undefinedOp 0x00#8) ∧ decode 0x000000FF#32 = .bad (.undefinedOp 0xFF#8) ∧
    decode 0x00000110#32 = .bad .reservedNonzero ∧ decode 0x80000001#32 = .bad .reservedNonzero := by decide

/-- The encoder, by the words of R92. -/
theorem test_encode :
    encode .rc4Cipher = 0x00000001#32 ∧ encode .rc4Schedule = 0x00000002#32 ∧
    encode .rc4Generate = 0x00000003#32 ∧ encode .modexp = 0x00000010#32 := by decide

/-! ## The host's view: the first step after reset with a word placed -/

/-- V17, V20: with the lengths and the modulus at 0, each command is the one that ends in its own code. -/
theorem test_fetch_rc4Cipher : after (State.reset.withFetchWord 32 0x00000001) (fun t =>
    t.done && t.err == 0x2#4 && !t.busy && t.resp == some (.write false)) = true := by decide
theorem test_fetch_rc4Schedule : after (State.reset.withFetchWord 32 0x00000002) (fun t =>
    t.done && t.err == 0x1#4 && !t.busy) = true := by decide
theorem test_fetch_rc4Generate : after (State.reset.withFetchWord 32 0x00000003) (fun t =>
    t.done && t.err == 0x2#4 && !t.busy) = true := by decide
theorem test_fetch_modexp : after (State.reset.withFetchWord 32 0x00000010) (fun t =>
    t.done && t.err == 0x4#4 && t.mxResult == 0#32) = true := by decide

/-! ## Commands and engine steps, one step each -/

/-- V31: the issue step of a schedule makes S the identity and sets the indices to 0. -/
theorem test_schedule_starts :
    after ({ idle with permStore := [(0, 1#8), (1, 0#8)], dataLen := 0x1FFFF#17 }.presenting (.write cmdOff 2#32))
      (fun t => t.busy && t.permAt 0#8 == 0#8 && t.permAt 1#8 == 1#8 && t.op == 2#8 && !t.done) = true := by decide

/-- V31, third row: the sum wraps, 0xB1 + 0x02 + 0x79 = 300; the key index goes back to 0. -/
theorem test_ksa_step_wraps : after (ksaAt opSchedule 2#9 2#9 0xB1#8) (fun t =>
    t.j == 0x2C#8 && t.permAt 0x02#8 == 0x2C#8 && t.permAt 0x2C#8 == 0x02#8 && t.kidx == 0#9 && t.c == 3#9) = true := by
  decide

/-- V12: the first step on the identity permutation, where i = j = 1: ks = S[2] = 0x02, DATA[0] = 0x50 xor 0x02. -/
theorem test_prga_step_same_index : after (prgaAt 0#17) (fun t =>
    t.i == 1#8 && t.j == 1#8 && t.load .data 0 == 0x52#8 && t.load .data 1 == 0x6C#8 && t.k == 1#17) = true := by decide

/-- V22, step 3 and step 4: multiply and square, then the end. -/
theorem test_mx_step : after (mxAt 4#64 256#32 3#32) (fun t =>
    t.acc == 30#64 && t.b == 429#32 && t.e == 1#32 && t.busy && t.mxResult == 0#32) = true := by decide
theorem test_mx_last_step : after (mxAt 30#64 429#32 1#32) (fun t =>
    t.mxResult == 445#32 && t.b == 151#32 && t.e == 0#32 && t.done && t.err == 0#4 && !t.busy) = true := by decide

/-- V21: exponent 0 with modulus 1 gives 0, not 1. -/
theorem test_modexp_modulus_one :
    after ({ idle with mxMod := 1#32, mxBase := 5#32, mxResult := 9#32 }.presenting (.write cmdOff 0x10#32))
      (fun t => t.mxResult == 0#32 && t.err == 0#4 && t.done && !t.busy) = true := by decide

/-- V17, the first three rows for DBUF_SIZE = 64: the data checks come before the key check. -/
theorem test_cipher_range_before_key :
    after ({ idle with dataLen := 65#17, keyLen := 0#9 }.presenting (.write cmdOff 1#32))
      (fun t => t.err == 0x3#4 && t.done && !t.busy) = true := by decide

/-- V34, third row: KEYLEN is not read by RC4_GENERATE, and DATALEN = DBUF_SIZE is in range. -/
theorem test_generate_ignores_key :
    after ({ idle with dataLen := 64#17, keyLen := 0#9 }.presenting (.write cmdOff 3#32))
      (fun t => t.busy && t.phase == .prga && !t.done) = true := by decide

/-! ## The bus, one access each -/

/-- P4, step 14, 16 and 18: a misaligned read, an unmapped read and the S window after reset. -/
theorem test_bus_reads :
    after (State.reset.presenting (.read 0x00002#17)) (fun t => t.resp == some (.read 0#32 true)) = true ∧
    after (State.reset.presenting (.read 0x10040#17)) (fun t => t.resp == some (.read 0#32 true)) = true ∧
    after (State.reset.presenting (.read 0x00200#17)) (fun t => t.resp == some (.read 0x03020100#32 false)) = true := by
  decide

/-- P1, step 2: a KEY word lands little-endian; P4, steps 10 and 11: DATALEN keeps bits 16:0. -/
theorem test_bus_writes :
    after (State.reset.presenting (.write 0x00100#17 0x0079654B#32)) (fun t =>
      t.load .key 0 == 0x4B#8 && t.load .key 1 == 0x65#8 && t.load .key 2 == 0x79#8 && t.load .key 3 == 0x00#8) = true ∧
    after (idle.presenting (.write 0x00010#17 0x00020000#32)) (fun t => t.dataLen == 0#17) = true := by decide

/-- V44: while BUSY = 1 a KEYLEN write only sets OVR; a STATUS read then gives 0x5. -/
theorem test_bus_busy :
    after ((ksaAt opSchedule 0#9 0#9 0#8).presenting (.write 0x0000C#17 5#32)) (fun t =>
      t.keyLen == 3#9 && t.ovr && t.resp == some (.write false) && statusWord t == 0x00000005#32) = true := by decide

/-- V45: irq falls with DONE. -/
theorem test_irq :
    { idle with done := true, ie := true }.irq = true ∧
    after ({ idle with done := true, ie := true }.presenting (.write 0x00004#17 2#32)) (fun t => !t.irq) = true := by decide

/-- P4, step 20: a STATUS read of a done block gives ERR at bits 11:8. -/
theorem test_status_word : statusWord { idle with err := 0x2#4 } = 0x00000200#32 := by decide

/-! ## The host script (30_encoding.md R101; P1) -/

theorem test_script :
    scriptLdkey [0x4B#8, 0x65#8, 0x79#8] = [.access (.write 0x00100#17 0x0079654B#32)] ∧
    scriptLddata [0x50#8, 0x6C#8, 0x61#8, 0x69#8, 0x6E#8, 0x74#8, 0x65#8, 0x78#8, 0x74#8] =
      [.access (.write 0x10000#17 0x69616C50#32), .access (.write 0x10004#17 0x7865746E#32),
       .access (.write 0x10008#17 0x00000074#32)] ∧
    scriptClr = [.access (.write 0x00004#17 0x00000006#32)] ∧
    scriptCmd .modexp = [.access (.write 0x00000#17 0x00000010#32)] := by decide

/-! ## Legal states, for the witnesses -/

/-- S is a bijection where no cell is listed: it is the identity. -/
theorem bijective_identity {s : State} (h : s.permStore = []) : PermBijective s := by
  have hid : ∀ x, s.permAt x = x := by
    intro x
    simp [State.permAt, State.load, State.cells, h, Memory.read, Memory.lookup, unlisted, unlistedKnown]
  exact fun v => ⟨v, hid v, fun y hy => by rw [← hy, hid]⟩

theorem legal_idle : Inv idle := by
  refine ⟨bijective_identity rfl, ?_, ?_, ?_, ?_, ?_, ?_, ?_, ?_, ?_, ?_⟩ <;> decide

/-- A running cipher at its last KSA step. -/
theorem legal_ksa : Inv (ksaAt opCipher 255#9 0#9 7#8) := by
  refine ⟨bijective_identity rfl, ?_, ?_, ?_, ?_, ?_, ?_, ?_, ?_, ?_, ?_⟩ <;> decide

theorem legal_prga : Inv (prgaAt 1#17) := by
  refine ⟨bijective_identity rfl, ?_, ?_, ?_, ?_, ?_, ?_, ?_, ?_, ?_, ?_⟩ <;> decide

theorem legal_mx : Inv (mxAt 4#64 256#32 3#32) := by
  refine ⟨bijective_identity rfl, ?_, ?_, ?_, ?_, ?_, ?_, ?_, ?_, ?_, ?_⟩ <;> decide

/-! ## Witnesses: for each statement with hypotheses, an instance of every clause that meets them -/

theorem witness_DecodeOfEncodeIsTheCommand : Instr.modexp.wellFormed = true := by decide

/-- Both clauses, at the ends of their ranges. -/
theorem witness_IllegalWordsAreBadByName :
    ((0x00000100#32 : Word).toNat / 256 ≠ 0 ∧ (0xFFFFFFFF#32 : Word).toNat / 256 ≠ 0) ∧
    ((0x00000000#32 : Word).toNat / 256 = 0 ∧ (0x00000000#32 : Word).toNat % 256 = 0x00) ∧
    ((0x000000FF#32 : Word).toNat / 256 = 0 ∧ (0x000000FF#32 : Word).toNat % 256 = 0xFF) := by decide

theorem witness_CommandWriteRunsTheDecodedCommand :
    decode 0x00000001#32 = .command .rc4Cipher ∧ Instr.rc4Cipher.wellFormed = true := by decide

theorem witness_BadCommandWordIsRejected :
    decode 0x00000101#32 = .bad .reservedNonzero ∧ idle.phase = .idle ∧ (prgaAt 0#17).phase ≠ .idle := by decide

theorem witness_EngineTurnFollowsThePhase :
    idle.inputs = [] ∧ { idle with inputs := [.engine, .reset none] }.inputs = .engine :: [.reset none] ∧
    (idle.presenting (.read statusOff)).inputs = .access (.read statusOff) :: [] ∧
    (idle.resetting none).inputs = .reset none :: [] ∧
    idle.phase = .idle ∧ (ksaAt opCipher 0#9 0#9 0#8).phase = .ksa ∧ (prgaAt 0#17).phase = .prga ∧
    (mxAt 1#64 4#32 13#32).phase = .mx := by decide

/-- DATALEN at both ends of its range: 1, and DBUF_SIZE of the largest machine; KEYLEN 1 and 511. -/
theorem witness_Rc4CipherStarts :
    (idle.phase = .idle ∧ { idle with dataLen := 1#17, keyLen := 1#9 }.dataLen ≠ 0#17 ∧
      { idle with dataLen := 1#17, keyLen := 1#9 }.dataLen.toNat ≤ idle.dbufSize ∧
      { idle with dataLen := 1#17, keyLen := 1#9 }.keyLen ≠ 0#9) ∧
    (big.phase = .idle ∧ { big with dataLen := 65536#17, keyLen := 511#9 }.dataLen ≠ 0#17 ∧
      { big with dataLen := 65536#17, keyLen := 511#9 }.dataLen.toNat ≤ big.dbufSize ∧
      { big with dataLen := 65536#17, keyLen := 511#9 }.keyLen ≠ 0#9) := by decide

theorem witness_Rc4ScheduleStarts : idle.phase = .idle ∧ idle.keyLen ≠ 0#9 := by decide

theorem witness_Rc4GenerateStarts :
    idle.phase = .idle ∧ { idle with dataLen := 64#17 }.dataLen ≠ 0#17 ∧
    { idle with dataLen := 64#17 }.dataLen.toNat ≤ idle.dbufSize := by decide

/-- The three cases: no modulus; the modulus 1 with exponent 0; the largest operands. -/
theorem witness_ModexpIssues :
    idle.phase = .idle ∧ idle.mxMod = 0#32 ∧
    ({ idle with mxMod := 1#32 }.mxMod ≠ 0#32 ∧ { idle with mxMod := 1#32 }.mxExp = 0#32) ∧
    ({ idle with mxMod := 0xFFFFFFFF#32, mxExp := 0xFFFFFFFF#32 }.mxMod ≠ 0#32 ∧
      { idle with mxMod := 0xFFFFFFFF#32, mxExp := 0xFFFFFFFF#32 }.mxExp ≠ 0#32) := by decide

/-- Each clause, at DATALEN = 0, DBUF_SIZE and DBUF_SIZE + 1. -/
theorem witness_RejectionReportsTheFirstCode :
    idle.phase = .idle ∧ { idle with dataLen := 0#17 }.dataLen = 0#17 ∧
    idle.dbufSize < { idle with dataLen := 65#17 }.dataLen.toNat ∧
    ({ idle with dataLen := 64#17, keyLen := 0#9 }.dataLen ≠ 0#17 ∧
      { idle with dataLen := 64#17, keyLen := 0#9 }.dataLen.toNat ≤ idle.dbufSize ∧
      { idle with dataLen := 64#17, keyLen := 0#9 }.keyLen = 0#9) ∧
    big.dbufSize < { big with dataLen := 65537#17 }.dataLen.toNat := by decide

theorem witness_CommandWhileBusyOnlySetsOvr : (mxAt 1#64 4#32 13#32).phase ≠ .idle := by decide

/-- The three clauses: e.c = 0 and 254, and e.c = 255 for each of the two commands; e.kidx = 0 and 255. -/
theorem witness_KsaStepFollowsItsRule :
    (∀ s ∈ [ksaAt opCipher 0#9 0#9 0#8, ksaAt opSchedule 254#9 2#9 0#8, ksaAt opCipher 255#9 255#9 0#8,
        ksaAt opSchedule 255#9 0#9 0#8],
      s.phase = .ksa ∧ s.c.toNat ≤ 255 ∧ s.kidx.toNat ≤ 255 ∧ Memory.wf .perm 256 s.permStore = true) ∧
    (ksaAt opSchedule 254#9 2#9 0#8).c.toNat < 255 ∧
    ((ksaAt opCipher 255#9 255#9 0#8).c.toNat = 255 ∧ (ksaAt opCipher 255#9 255#9 0#8).op = 0x01#8) ∧
    ((ksaAt opSchedule 255#9 0#9 0#8).c.toNat = 255 ∧ (ksaAt opSchedule 255#9 0#9 0#8).op ≠ 0x01#8) := by decide

/-- Both clauses: not the last position, and the last. -/
theorem witness_PrgaStepFollowsItsRule :
    (∀ s ∈ [prgaAt 0#17, prgaAt 1#17],
      s.phase = .prga ∧ s.k.toNat < s.dataLen.toNat ∧ s.dataLen.toNat ≤ s.dbufSize ∧
      Memory.wf .perm 256 s.permStore = true) ∧
    (prgaAt 0#17).k.toNat + 1 < (prgaAt 0#17).dataLen.toNat ∧
    (prgaAt 1#17).k.toNat + 1 = (prgaAt 1#17).dataLen.toNat := by decide

/-- Both clauses: e.e = 2 and e.e = 1. -/
theorem witness_MxStepFollowsItsRule :
    (∀ s ∈ [mxAt 4#64 256#32 2#32, mxAt 4#64 256#32 1#32], s.phase = .mx ∧ s.e ≠ 0#32 ∧ s.m ≠ 0#32) ∧
    (mxAt 4#64 256#32 2#32).e.toNat / 2 ≠ 0 ∧ (mxAt 4#64 256#32 1#32).e.toNat / 2 = 0 := by decide

/-- The largest operands: e.m = 2^32 - 1, and e.acc = e.b = 2^32 - 2. -/
def mxLargest : State :=
  { mxAt 0xFFFFFFFE#64 0xFFFFFFFE#32 1#32 with mxMod := 0xFFFFFFFF#32, m := 0xFFFFFFFF#32 }

theorem witness_MxProductsFitTheDatapath :
    (Inv (mxAt 4#64 256#32 3#32) ∧ (mxAt 4#64 256#32 3#32).phase = .mx) ∧
    (Inv mxLargest ∧ mxLargest.phase = .mx ∧ mxLargest.acc.toNat * mxLargest.b.toNat = (2 ^ 32 - 2) ^ 2) := by
  refine ⟨⟨legal_mx, rfl⟩, ⟨bijective_identity rfl, ?_, ?_, ?_, ?_, ?_, ?_, ?_, ?_, ?_, ?_⟩, ?_⟩ <;> decide

theorem ready_idle : CipherReady idle := by
  unfold CipherReady
  decide

theorem witness_CipherReachesItsEndState :
    CipherReady idle ∧ CipherReady { big with dataLen := 65536#17, keyLen := 511#9 } :=
  ⟨ready_idle, by unfold CipherReady; decide⟩

theorem witness_ScheduleReachesItsEndState :
    ∀ s ∈ [{ small with keyLen := 1#9 }, { small with keyLen := 511#9 }],
      s.phase = .idle ∧ s.inputs = [] ∧ s.keyLen ≠ 0#9 := by decide

theorem witness_GenerateReachesItsEndState :
    ∀ s ∈ [{ small with dataLen := 1#17 }, { small with dataLen := 4#17 }, { big with dataLen := 65536#17 }],
      s.phase = .idle ∧ s.inputs = [] ∧ 1 ≤ s.dataLen.toNat ∧ s.dataLen.toNat ≤ s.dbufSize ∧
      Memory.wf .perm 256 s.permStore = true := by decide

/-- Both clauses: a zero modulus and another. -/
theorem witness_ModexpReachesItsEndState :
    idle.phase = .idle ∧ idle.inputs = [] ∧ idle.mxMod = 0#32 ∧ { idle with mxMod := 497#32 }.mxMod ≠ 0#32 := by decide

/-- Two states that agree on what RC4_CIPHER reads and differ in S, in DATA at DATALEN and in a key byte above KEYLEN. -/
def idleOther : State :=
  { idle with
    permStore := [(0, 1#8), (1, 0#8)], keyStore := [(0, 0x4B#8), (1, 0x65#8), (2, 0x79#8), (3, 0xFF#8)]
    dataStore := [(0, 0x50#8), (1, 0x6C#8), (2, 0xFF#8)] }

theorem witness_CipherResultDependsOnlyOnItsInputs :
    CipherReady idle ∧ CipherReady idleOther ∧ idle.dataLen = idleOther.dataLen ∧
    keyBytesRead idle = keyBytesRead idleOther ∧
    (∀ x, x < keyBytesRead idle → idle.load .key x = idleOther.load .key x) ∧
    (∀ k, k < idle.dataLen.toNat → idle.load .data k = idleOther.load .data k) ∧
    idle.load .perm 0 ≠ idleOther.load .perm 0 ∧ idle.load .key 3 ≠ idleOther.load .key 3 ∧
    idle.load .data 2 ≠ idleOther.load .data 2 := by
  refine ⟨ready_idle, by unfold CipherReady; decide, ?_⟩
  decide

theorem witness_ScheduleResultDependsOnlyOnItsInputs :
    idle.phase = .idle ∧ idle.inputs = [] ∧ idle.keyLen ≠ 0#9 ∧
    idleOther.phase = .idle ∧ idleOther.inputs = [] ∧ idleOther.keyLen ≠ 0#9 ∧
    keyBytesRead idle = keyBytesRead idleOther ∧
    (∀ x, x < keyBytesRead idle → idle.load .key x = idleOther.load .key x) := by decide

theorem witness_CipherTwiceRestoresTheData : CipherReady idle := ready_idle
theorem witness_ScheduleThenGenerateEqualsCipher : CipherReady idle := ready_idle

/-- A legal state with a step: an engine step, a host access, a reset. -/
theorem witness_StepKeepsLegalStates :
    Inv (prgaAt 1#17) ∧ after (prgaAt 1#17) (fun t => t.done) = true ∧
    after ((prgaAt 1#17).presenting (.write cmdOff 1#32)) (fun t => t.ovr) = true ∧
    after ((prgaAt 1#17).resetting none) (fun t => !t.busy) = true := ⟨legal_prga, by decide, by decide, by decide⟩

theorem witness_NoRunFromALegalStateStops : Inv (ksaAt opCipher 255#9 0#9 7#8) := legal_ksa

/-- Both clauses: a run of one step from a reset state, and a step from a state whose S is no identity. -/
theorem witness_PermutationIsAlwaysABijection :
    (∃ t, run 1 { State.afterReset defaultConfig with inputs := [.access (.write cmdOff 2#32)] } = .next t) ∧
    (Memory.wf .perm 256 (prgaAt 1#17).permStore = true ∧ PermBijective (prgaAt 1#17) ∧
      ∃ t, step (prgaAt 1#17) = .next t) :=
  ⟨⟨_, rfl⟩, by decide, bijective_identity rfl, ⟨_, rfl⟩⟩

theorem witness_ConfigurationIsConstant : ∃ t, step (prgaAt 1#17) = .next t := ⟨_, rfl⟩

theorem witness_EachEngineStepBringsTheEndNearer :
    (Inv (mxAt 4#64 256#32 3#32) ∧ (mxAt 4#64 256#32 3#32).busy = true ∧ (mxAt 4#64 256#32 3#32).phase = .mx) ∧
    (Inv (ksaAt opCipher 255#9 0#9 7#8) ∧ (ksaAt opCipher 255#9 0#9 7#8).busy = true) :=
  ⟨⟨legal_mx, rfl, rfl⟩, legal_ksa, rfl⟩

theorem witness_HostCannotDisturbARunningCommand : (ksaAt opSchedule 0#9 0#9 0#8).busy = true := by decide

/-- V44: a generation with two steps left, a gated write before the first and a read before the second; one event is
still to come when it ends. -/
def interleaved : State :=
  { prgaAt 0#17 with
    inputs := [.access (.write keyLenOff 5#32), .engine, .access (.read dataLenOff)] ++ Event.engine :: [.reset none] }

theorem witness_InterleavingDoesNotChangeTheResult :
    Inv interleaved ∧ interleaved.busy = true ∧
    interleaved.inputs =
      [.access (.write keyLenOff 5#32), .engine, .access (.read dataLenOff)] ++ Event.engine :: [.reset none] ∧
    (∀ p, Event.reset p ∉ [.access (.write keyLenOff 5#32), .engine, .access (.read dataLenOff)]) ∧
    [Event.access (.write keyLenOff 5#32), .engine, .access (.read dataLenOff)].count .engine + 1 =
      stepsLeft interleaved := by
  refine ⟨?_, by decide, rfl, by simp, by decide⟩
  refine ⟨bijective_identity rfl, ?_, ?_, ?_, ?_, ?_, ?_, ?_, ?_, ?_, ?_⟩ <;> decide

/-- A legal running state with events listed, a reset among them. -/
theorem witness_EveryRunComesToRest : Inv interleaved := by
  refine ⟨bijective_identity rfl, ?_, ?_, ?_, ?_, ?_, ?_, ?_, ?_, ?_, ?_⟩ <;> decide

/-- The last words of the windows: KEY and S 63, DATA 15 for 64 bytes and 16383 for 65536. -/
theorem witness_ResultReadsAreExactWhileIdle :
    idle.busy = false ∧ 63 < 64 ∧ 4 * 15 < idle.dbufSize ∧ big.busy = false ∧ 4 * 16383 < big.dbufSize := by decide

theorem witness_ExactReadsReturnTheRegisters : 0 < 64 ∧ 63 < 64 := by decide

theorem witness_ResultReadsWhileBusyAreFreeValues :
    (prgaAt 0#17).busy = true ∧ 0x002FC = 0x00200 + 4 * 63 ∧ 63 < 64 ∧ 0x1003C = 0x10000 + 4 * 15 ∧
    4 * 15 < (prgaAt 0#17).dbufSize := by decide

theorem witness_IdleRegisterWritesStoreTheirBits : idle.busy = false := by decide

theorem witness_WindowWritesStoreFourBytes :
    idle.busy = false ∧ 63 < 64 ∧ 4 * 15 < idle.dbufSize ∧ 4 * 0 < small.dbufSize ∧ small.busy = false := by decide

theorem witness_WindowWordsReadBackAsWritten :
    idle.busy = false ∧ (63 < 64 ∧ 0x001FC = 0x00100 + 4 * 63 ∨ 4 * 63 < idle.dbufSize ∧ 0x001FC = 0x10000 + 4 * 63) ∧
    (15 < 64 ∧ 0x1003C = 0x00100 + 4 * 15 ∨ 4 * 15 < idle.dbufSize ∧ 0x1003C = 0x10000 + 4 * 15) := by decide

/-- Each of the eight kinds of gated location, the windows at their last word. -/
theorem witness_GatedWritesWhileBusyOnlySetOvr :
    (prgaAt 0#17).busy = true ∧
    ∀ a ∈ [0x00000, 0x0000C, 0x00010, 0x00014, 0x00018, 0x0001C, 0x001FC, 0x1003C],
      GatedOffset (prgaAt 0#17).dbufSize a := by
  refine ⟨by decide, fun a ha => ?_⟩
  unfold GatedOffset
  simp only [List.mem_cons, List.not_mem_nil, or_false] at ha
  rcases ha with h | h | h | h | h | h | h | h
  · exact .inl h
  · exact .inr (.inl h)
  · exact .inr (.inr (.inl h))
  · exact .inr (.inr (.inr (.inl h)))
  · exact .inr (.inr (.inr (.inr (.inl h))))
  · exact .inr (.inr (.inr (.inr (.inr (.inl h)))))
  · exact .inr (.inr (.inr (.inr (.inr (.inr (.inl ⟨63, by decide, h⟩))))))
  · exact .inr (.inr (.inr (.inr (.inr (.inr (.inr ⟨15, by decide, h⟩))))))

theorem witness_ReadOnlyWritesAreIgnored :
    (0x00020 = 0x00020 ∨ 0x00020 = 0x00024 ∨ ∃ w, w < 64 ∧ 0x00020 = 0x00200 + 4 * w) ∧
    (0x002FC = 0x00020 ∨ 0x002FC = 0x00024 ∨ ∃ w, w < 64 ∧ 0x002FC = 0x00200 + 4 * w) :=
  ⟨.inl rfl, .inr (.inr ⟨63, by decide, rfl⟩)⟩

theorem witness_MisalignedAccessesAnswerErr :
    (0x00001#17 : Offset).toNat % 4 ≠ 0 ∧ (0x1FFFF#17 : Offset).toNat % 4 ≠ 0 := by decide

/-- Both ends of each of the three ranges, for DBUF_SIZE = 64. -/
theorem witness_UnmappedAccessesAnswerErr :
    (∀ a ∈ [0x00028, 0x000FC, 0x00300, 0x0FFFC, 0x10040, 0x1FFFC], a % 4 = 0 ∧ UnmappedOffset idle.dbufSize a) ∧
    (0x00028#17 : Offset).toNat = 0x00028 ∧ (0x1FFFC#17 : Offset).toNat = 0x1FFFC := by
  have h : idle.dbufSize = 64 := rfl
  refine ⟨fun a ha => ?_, by decide, by decide⟩
  rw [h, UnmappedOffset]
  simp only [List.mem_cons, List.not_mem_nil, or_false] at ha
  omega

/-- The flags of a completed block. -/
def completed : State := { idle with done := true, ovr := true, err := 0x2#4, mxResult := 7#32 }

/-- DONE falls at a STATUS write and at a reset, rises at a rejection, and rises at the end of a generation. -/
theorem witness_DoneChangesOnlyAsItsRuleSays :
    (after (completed.presenting (.write 0x00004#17 2#32)) (fun t => completed.done && !t.done) = true ∧
      after (completed.resetting none) (fun t => !t.done) = true) ∧
    after (idle.presenting (.write cmdOff 0#32)) (fun t => !idle.done && t.done) = true ∧
    after (prgaAt 1#17) (fun t => (prgaAt 1#17).busy && !t.busy) = true := by decide

/-- OVR rises at a gated write while BUSY = 1, and falls at a STATUS write. -/
theorem witness_OvrChangesOnlyAsItsRuleSays :
    after ((prgaAt 0#17).presenting (.write cmdOff 1#32)) (fun t => !(prgaAt 0#17).ovr && t.ovr) = true ∧
    after (completed.presenting (.write 0x00004#17 4#32)) (fun t => completed.ovr && !t.ovr) = true := by decide

/-- ERR changes at a rejection, at the end of a command and at a reset. -/
theorem witness_ErrIsWrittenOnlyByACompletion :
    after (completed.presenting (.write cmdOff 0#32)) (fun t => t.err != completed.err) = true ∧
    after { prgaAt 1#17 with err := 0x5#4 } (fun t => t.err != 0x5#4) = true ∧
    after (completed.resetting none) (fun t => t.err != completed.err) = true := by decide

/-- MX_RESULT changes at the issue step of MODEXP and at the last MX step. -/
theorem witness_ResultIsWrittenOnlyByModexp :
    after (completed.presenting (.write cmdOff 0x10#32)) (fun t => t.mxResult != completed.mxResult) = true ∧
    after (mxAt 30#64 429#32 1#32) (fun t => t.mxResult != (mxAt 30#64 429#32 1#32).mxResult) = true := by decide

/-- Each store changes in each of the ways its clause names, in no reset step. -/
theorem witness_StoresAreWrittenOnlyAsTheirRulesSay :
    after (idle.presenting (.write 0x00100#17 0#32)) (fun t => t.load .key 0 != idle.load .key 0) = true ∧
    after (idle.presenting (.write 0x10000#17 0#32)) (fun t => t.load .data 0 != idle.load .data 0) = true ∧
    after (prgaAt 0#17) (fun t => t.load .data 0 != (prgaAt 0#17).load .data 0) = true ∧
    after (idleOther.presenting (.write cmdOff 1#32)) (fun t => t.load .perm 0 != idleOther.load .perm 0) = true ∧
    after (ksaAt opSchedule 2#9 2#9 0xB1#8) (fun t => t.load .perm 2 != 2#8) = true ∧
    ¬ResetNext (prgaAt 0#17) := by
  refine ⟨by decide, by decide, by decide, by decide, by decide, ?_⟩
  rintro ⟨p, rest, h⟩
  cases h

/-- Two states with the same RC4 side and another MODEXP side, and the other way round, with a step of each. -/
theorem witness_TheTwoEnginesShareNoData :
    SameRc4 (prgaAt 0#17) { prgaAt 0#17 with mxBase := 9#32, m := 5#32 } ∧
    SameMx (mxAt 4#64 256#32 3#32) { mxAt 4#64 256#32 3#32 with keyLen := 9#9, permStore := [(0, 1#8), (1, 0#8)] } ∧
    (prgaAt 0#17).phase = .prga ∧ (mxAt 4#64 256#32 3#32).phase = .mx ∧
    (∃ t, engineTurn (prgaAt 0#17) = .next t) ∧ (∃ t, engineTurn (mxAt 4#64 256#32 3#32) = .next t) ∧
    (∃ t, exec .rc4Cipher idle = .next t) ∧ (∃ t, exec .modexp idle = .next t) ∧ Instr.rc4Cipher ≠ .modexp :=
  ⟨by unfold SameRc4; decide, by unfold SameMx; decide, rfl, rfl, ⟨_, rfl⟩, ⟨_, rfl⟩, ⟨_, rfl⟩, ⟨_, rfl⟩, by decide⟩

end Sys2Proof.Tests
end

/-! PROOFS. Which step is taken, and which engine step the phase selects (00_scope.md R13; 10_state.md R41). -/

namespace Sys2Proof.Machine

/-! The engine's turn in each phase. -/

theorem engineTurn_idle {s : State} (h : s.phase = .idle) : engineTurn s = .next s := by
  rw [engineTurn, h]

theorem engineTurn_ksa {s : State} (h : s.phase = .ksa) : engineTurn s = ksaStep s := by
  rw [engineTurn, h]

theorem engineTurn_prga {s : State} (h : s.phase = .prga) : engineTurn s = prgaStep s := by
  rw [engineTurn, h]

theorem engineTurn_mx {s : State} (h : s.phase = .mx) : engineTurn s = mxStep s := by
  rw [engineTurn, h]

/-- Settles O7: one law of `step` for each shape of the list of events, one of `engineTurn` for each phase. -/
theorem engineTurnFollowsThePhase : Obligations.EngineTurnFollowsThePhase := by
  intro s
  exact ⟨step_alone, fun _ _ => step_access, fun _ => step_engine, fun _ _ => step_reset,
    engineTurn_idle, engineTurn_ksa, engineTurn_prga, engineTurn_mx⟩

end Sys2Proof.Machine

/-! PROOFS. Everything one event does to the block, as one inductive relation: every rule about the whole machine below
is read off its cases (00_scope.md R13; 20_memory.md R69; 60_exceptions.md R160). -/

namespace Sys2Proof.Machine

/-- What an event does, with the guard under which it does it. Which response a write gets is left open. -/
inductive Effect : Event → State → State → Prop
  /-- No engine step is enabled in IDLE. -/
  | engineIdle {s} (hp : s.phase = .idle) : Effect .engine s s
  | ksa {s} (hp : s.phase = .ksa) (hc : s.c.toNat < 256) (hk : s.kidx.toNat < 256) : Effect .engine s (ksaBody s)
  | prga {s} (hp : s.phase = .prga) (hk : s.k.toNat < s.dataLen.toNat) (hd : s.k.toNat < s.dbufSize) :
      Effect .engine s (prgaBody s)
  | mx {s} (hp : s.phase = .mx) (he : s.e ≠ 0#32) (hm : s.m ≠ 0#32) : Effect .engine s (mxBody s)
  | reset (p s) : Effect (.reset p) s (resetStep p s)
  | read (off s) : Effect (.access (.read off)) s (busRead off s)
  /-- A write that changes nothing. -/
  | ignored (off v err s) : Effect (.access (.write off v)) s (respondWrite err s)
  | status {off} (ho : off.toNat = 0x00004) (v err s) :
      Effect (.access (.write off v)) s (respondWrite err (writeStatus v s))
  | ctrl (off v err s) : Effect (.access (.write off v)) s (respondWrite err (writeCtrl v s))
  /-- A gated write while BUSY = 1. -/
  | gated {off s} (hb : s.busy = true) (hg : GatedOffset s.dbufSize off.toNat) (v err) :
      Effect (.access (.write off v)) s (respondWrite err { s with ovr := true })
  /-- A write of a length or of a MODEXP input. -/
  | register {s} (hp : s.phase = .idle) (off v err keyLen dataLen base exp mod) :
      Effect (.access (.write off v)) s (respondWrite err
        { s with keyLen := keyLen, dataLen := dataLen, mxBase := base, mxExp := exp, mxMod := mod })
  | keyWord {s w off} (hp : s.phase = .idle) (hw : w < 64) (ho : off.toNat = 0x00100 + 4 * w) (v err) :
      Effect (.access (.write off v)) s (respondWrite err (storeWord .key w v s))
  | dataWord {s w off} (hp : s.phase = .idle) (hw : 4 * w < s.dbufSize) (ho : off.toNat = 0x10000 + 4 * w) (v err) :
      Effect (.access (.write off v)) s (respondWrite err (storeWord .data w v s))
  | rejected {s} (hp : s.phase = .idle) (off v code) :
      Effect (.access (.write off v)) s (respondWrite false (complete code s))
  | cipher {s off} (hp : s.phase = .idle) (ho : off.toNat = 0x00000) (hcode : cipherCode s = none) :
      Effect (.access (.write off (encode .rc4Cipher))) s (respondWrite false (startKsa opCipher s))
  | schedule {s off} (hp : s.phase = .idle) (ho : off.toNat = 0x00000) (hcode : keyLenCode s = none) :
      Effect (.access (.write off (encode .rc4Schedule))) s (respondWrite false (startKsa opSchedule s))
  | generate {s off} (hp : s.phase = .idle) (ho : off.toNat = 0x00000) (hcode : dataLenCode s = none) :
      Effect (.access (.write off (encode .rc4Generate))) s (respondWrite false (startPrga opGenerate s))
  | modexp {s off} (hp : s.phase = .idle) (ho : off.toNat = 0x00000) :
      Effect (.access (.write off (encode .modexp))) s (respondWrite false (mxIssue s))

/-- A word with RSV 0 and the opcode of a command as OP is the command's word (30_encoding.md R90). -/
theorem eq_encode_of_fields {v : Word} {i : Instr} (hr : rsvField v = 0#24) (ho : opField v = opcode i) :
    v = encode i := by
  have hword : encode i = BitVec.ofNat 32 (opcode i).toNat := by cases i <;> rfl
  rw [hword, word_eq_iff v _ (opcode i).isLt]
  exact ⟨(rsvField_eq_zero_iff v).1 hr, (opField_eq_iff v _).1 ho⟩

/-- The decoder answers a command for the command's own word only (30_encoding.md R92). -/
theorem eq_encode_of_decode {v : Word} {i : Instr} (h : decode v = .command i) : v = encode i := by
  unfold decode at h
  split_ifs at h with hr h1 h2 h3 h4
  all_goals
    cases h
    exact eq_encode_of_fields (by simpa using hr) (by simpa [opcode] using ‹(opField v == _) = true›)

/-- Issuing at CMD: gated while BUSY = 1, else rejected with the code or started (60_exceptions.md R160). -/
theorem effect_issue {off : Offset} {v : Word} {s : State} {code : Option Code} {start : State → State}
    (ho : off.toNat = 0x00000)
    (hstart : s.phase = .idle → code = none → Effect (.access (.write off v)) s (respondWrite false (start s))) :
    Effect (.access (.write off v)) s (respondWrite false (issue code start s)) := by
  obtain ⟨hp, h⟩ | ⟨hp, r, -, h⟩ | ⟨hp, hcode, h⟩ := issue_cases code start s
  · rw [h]; exact .gated (busy_eq_true_iff.2 hp) (.inl ho) v false
  · rw [h]; exact .rejected hp off v r
  · rw [h]; exact hstart hp hcode

theorem effect_exec {off : Offset} {i : Instr} {s t : State} (ho : off.toNat = 0x00000) (h : exec i s = .next t) :
    Effect (.access (.write off (encode i))) s (respondWrite false t) := by
  cases i with
  | rc4Cipher => cases h; exact effect_issue ho (.cipher · ho ·)
  | rc4Schedule => cases h; exact effect_issue ho (.schedule · ho ·)
  | rc4Generate => cases h; exact effect_issue ho (.generate · ho ·)
  | modexp => cases h; exact effect_issue ho fun hp _ => .modexp hp ho

theorem effect_writeCmd {off : Offset} {v : Word} {s t : State} (ho : off.toNat = 0x00000)
    (h : writeCmd v s = .next t) : Effect (.access (.write off v)) s (respondWrite false t) := by
  unfold writeCmd at h
  split at h
  · next i hi => rw [eq_encode_of_decode hi]; exact effect_exec ho h
  · cases h
    exact effect_issue (code := some .badCmd) (start := id) ho fun _ hnone => nomatch hnone

/-- The locations whose writes BUSY gates, by offset (70_reset_and_hazards.md R200). -/
theorem gatedOffset_of_locAt {size a : Nat} {l : Loc} (h : LocAt size a l)
    (hl : l = .keyLen ∨ l = .dataLen ∨ l = .mxBase ∨ l = .mxExp ∨ l = .mxMod ∨ (∃ w, l = .key w) ∨ ∃ w, l = .data w) :
    GatedOffset size a := by
  obtain rfl | rfl | rfl | rfl | rfl | ⟨w, rfl⟩ | ⟨w, rfl⟩ := hl
  · exact .inr (.inl h)
  · exact .inr (.inr (.inl h))
  · exact .inr (.inr (.inr (.inl h)))
  · exact .inr (.inr (.inr (.inr (.inl h))))
  · exact .inr (.inr (.inr (.inr (.inr (.inl h)))))
  · exact .inr (.inr (.inr (.inr (.inr (.inr (.inl ⟨w, h⟩))))))
  · exact .inr (.inr (.inr (.inr (.inr (.inr (.inr ⟨w, h⟩))))))

theorem effect_writeLoc {off : Offset} (v : Word) (err : Bool) {s : State} {l : Loc}
    (hl : LocAt s.dbufSize off.toNat l) :
    Effect (.access (.write off v)) s (respondWrite err (writeLoc v s l)) := by
  obtain h | ⟨rfl, h⟩ | ⟨rfl, h⟩ | ⟨hb, hg, h⟩ | ⟨hb, a, b, c, d, e, h⟩ | ⟨hb, w, rfl, h⟩ | ⟨hb, w, rfl, h⟩ :=
    writeLoc_cases s v l <;> rw [h]
  · exact .ignored off v err s
  · exact .status hl v err s
  · exact .ctrl off v err s
  · exact .gated hb (gatedOffset_of_locAt hl hg) v err
  · exact .register (busy_eq_false_iff.1 hb) off v err a b c d e
  · exact .keyWord (busy_eq_false_iff.1 hb) hl.1 hl.2 v err
  · exact .dataWord (busy_eq_false_iff.1 hb) hl.1 hl.2 v err

theorem effect_busWrite {off : Offset} {v : Word} {s t : State} (h : busWrite off v s = .next t) :
    Effect (.access (.write off v)) s t := by
  have hl := locate_spec s.dbufSize off
  by_cases hcmd : locate s.dbufSize off = .cmd
  · obtain ⟨u, hu⟩ := writeCmd_next v s
    rw [busWrite_cmd hcmd, hu] at h
    rw [hcmd] at hl
    cases h
    exact effect_writeCmd hl hu
  · rw [busWrite_other hcmd] at h
    cases h
    exact effect_writeLoc v _ hl

theorem effect_engineTurn {s t : State} (h : engineTurn s = .next t) : Effect .engine s t := by
  obtain ⟨hp, rfl⟩ | ⟨hp, hc, hk, rfl⟩ | ⟨hp, hk, hd, rfl⟩ | ⟨hp, he, hm, rfl⟩ := engineTurn_cases h
  · exact .engineIdle hp
  · exact .ksa hp hc hk
  · exact .prga hp hk hd
  · exact .mx hp he hm

/-- Every event has one of the effects. -/
theorem effect_runEvent {ev : Event} {s t : State} (h : runEvent ev s = .next t) : Effect ev s t := by
  match ev with
  | .engine => exact effect_engineTurn h
  | .access (.read off) => cases h; exact .read off s
  | .access (.write off v) => exact effect_busWrite h
  | .reset p => cases h; exact .reset p s

/-- The next step is the event `ev`: the oldest listed one, or the engine's turn where none is listed. -/
def Comes (s : State) (ev : Event) : Prop :=
  s.inputs = [] ∧ ev = .engine ∨ ∃ rest, s.inputs = ev :: rest

theorem Comes.engineNext {s : State} (h : Comes s .engine) : EngineNext s :=
  h.imp_left And.left

theorem Comes.resetNext {s : State} {p : Option Access} (h : Comes s (.reset p)) : ResetNext s := by
  obtain ⟨-, h⟩ | ⟨rest, h⟩ := h
  · cases h
  · exact ⟨p, rest, h⟩

theorem Comes.writeNext {s : State} {off : Offset} {v : Word} {a : Nat} (h : Comes s (.access (.write off v)))
    (ho : off.toNat = a) : WriteNext s a v := by
  obtain ⟨-, h⟩ | ⟨rest, h⟩ := h
  · cases h
  · exact ⟨off, rest, h, ho⟩

/-- A step is the effect of the event that comes next, on the state with the events behind it still to come. -/
theorem step_effect {s t : State} (h : step s = .next t) :
    ∃ ev rest, Comes s ev ∧ Effect ev { s with inputs := rest } t := by
  unfold step takeStep at h
  split at h
  · next hi => exact ⟨.engine, s.inputs, .inl ⟨hi, rfl⟩, effect_engineTurn h⟩
  · next ev rest hi => exact ⟨ev, rest, .inr ⟨rest, hi⟩, effect_runEvent h⟩

end Sys2Proof.Machine

/-! PROOFS. The legal states: what keeps S a bijection, what keeps the whole of `Inv`, and that every step does
(10_state.md R42; 40_rc4.md R113 to R118; 41_modexp.md R142, R143). -/

namespace Sys2Proof.Machine

/-! ## S -/

/-- S is the identity where no cell is listed (10_state.md R44). -/
theorem permAt_of_nil {s : State} (h : s.permStore = []) (x : Byte) : s.permAt x = x := by
  simp [State.permAt, State.load, State.cells, h]

theorem permBijective_of_nil {s : State} (h : s.permStore = []) : PermBijective s :=
  fun v => ⟨v, permAt_of_nil h v, fun y hy => by rw [← hy, permAt_of_nil h]⟩

/-- A swap of two bytes leaves S a bijection. -/
theorem permBijective_of_swap {s t : State} {p q : Byte} (hb : PermBijective s)
    (ht : ∀ x, t.permAt x = swapAt s.permAt p q x) : PermBijective t := by
  intro v
  simp only [ht, swapAt]
  exact swap_bijective hb v

/-- The cells of S are in canonical form and hold each value once. -/
def PermLegal (s : State) : Prop := Memory.wf .perm 256 s.permStore = true ∧ PermBijective s

theorem permLegal_of_nil {s : State} (h : s.permStore = []) : PermLegal s :=
  ⟨by rw [h]; rfl, permBijective_of_nil h⟩

/-- Where an unlisted index of S holds the index, S depends on its cells alone. -/
theorem permAt_congr {s t : State} (h : t.permStore = s.permStore) (x : Byte) : t.permAt x = s.permAt x := by
  simp only [State.permAt, State.load, State.cells, h, Memory.read, unlisted_perm]

theorem permLegal_congr {s t : State} (hs : PermLegal s) (h : t.permStore = s.permStore) : PermLegal t := by
  refine ⟨by rw [h]; exact hs.1, fun v => ?_⟩
  simp only [permAt_congr h]
  exact hs.2 v

theorem permLegal_swapPerm {s : State} (hs : PermLegal s) (p q : Byte) : PermLegal (swapPerm p q s) :=
  ⟨storeByte_perm_wf q.isLt (storeByte_perm_wf p.isLt hs.1),
    permBijective_of_swap hs.2 fun _ => permAt_swapPerm hs.1⟩

theorem permLegal_ksaSwap {s : State} (hs : PermLegal s) : PermLegal (ksaSwap s) :=
  permLegal_swapPerm (permLegal_congr hs rfl) _ _

theorem permLegal_prgaSwap {s : State} (hs : PermLegal s) : PermLegal (prgaSwap s) :=
  permLegal_swapPerm (permLegal_congr hs rfl) _ _

@[simp] theorem ksaBody_permStore (s : State) : (ksaBody s).permStore = (ksaSwap s).permStore := by
  unfold ksaBody ksaEnd; split_ifs <;> rfl

@[simp] theorem prgaBody_permStore (s : State) : (prgaBody s).permStore = (prgaSwap s).permStore := by
  unfold prgaBody prgaEnd; split_ifs <;> rfl

@[simp] theorem mxBody_permStore (s : State) : (mxBody s).permStore = s.permStore := by
  unfold mxBody mxEnd; split_ifs <;> rfl

@[simp] theorem mxIssue_permStore (s : State) : (mxIssue s).permStore = s.permStore := by
  unfold mxIssue mxStart; split_ifs <;> rfl

@[simp] theorem storeWord_key_permStore (w : Nat) (v : Word) (s : State) :
    (storeWord .key w v s).permStore = s.permStore := by rw [storeWord_key_eq]

@[simp] theorem storeWord_data_permStore (w : Nat) (v : Word) (s : State) :
    (storeWord .data w v s).permStore = s.permStore := by rw [storeWord_data_eq]

/-- An event sets S to the identity, swaps two of its bytes, or leaves it (10_state.md R37). -/
theorem permLegal_of_effect {ev : Event} {s t : State} (h : Effect ev s t) (hs : PermLegal s) : PermLegal t := by
  cases h with
  | reset | cipher | schedule => exact permLegal_of_nil rfl
  | ksa => exact permLegal_congr (permLegal_ksaSwap hs) (ksaBody_permStore s)
  | prga => exact permLegal_congr (permLegal_prgaSwap hs) (prgaBody_permStore s)
  | mx => exact permLegal_congr hs (mxBody_permStore s)
  | modexp => exact permLegal_congr hs (mxIssue_permStore s)
  | keyWord | dataWord => exact permLegal_congr hs (by simp)
  | _ => exact permLegal_congr hs rfl

/-! ## Parts of `Inv` -/

/-- Any state with the registers of 10_state.md R44 is legal. -/
theorem inv_afterReset (g : Config) (resp : Option BusResponse) (epoch draws : Nat) (evs : List Event) :
    Inv { State.afterReset g with resp := resp, epoch := epoch, draws := draws, inputs := evs } where
  permBijective := permBijective_of_nil rfl
  errCode := Nat.zero_le 5
  keyCells := rfl
  permCells := rfl
  dataCells := rfl
  cRange := Nat.zero_le 256
  kidxRange := Nat.zero_le 256
  mxReduced hm := absurd rfl hm
  ksaPhase hp := nomatch hp
  prgaPhase hp := nomatch hp
  mxPhase hp := nomatch hp

/-- Settles O28: both are states with the registers of `State.afterReset`. -/
theorem resetStateIsLegal : Obligations.ResetStateIsLegal :=
  ⟨inv_afterReset defaultConfig none 0 0 [], fun g evs => inv_afterReset g none 0 0 evs⟩

/-- Forgetting which command runs leaves a legal state. -/
theorem inv_idle {s : State} (h : Inv s) : Inv { s with phase := .idle } :=
  { h with ksaPhase := nofun, prgaPhase := nofun, mxPhase := nofun }

/-! A state whose registers are legal is legal when the running command stands where its own rule says. -/

theorem inv_of_ksa {s : State} (hp : s.phase = .ksa) (h : Inv { s with phase := .idle })
    (hk : s.c.toNat < 256 ∧ s.keyLen ≠ 0#9 ∧ s.kidx.toNat = s.c.toNat % s.keyLen.toNat ∧
      (s.op = opCipher ∧ 1 ≤ s.dataLen.toNat ∧ s.dataLen.toNat ≤ s.dbufSize ∨ s.op = opSchedule)) : Inv s :=
  { h with
    ksaPhase := fun _ => hk
    prgaPhase := fun hq => nomatch hp.symm.trans hq
    mxPhase := fun hq => nomatch hp.symm.trans hq }

theorem inv_of_prga {s : State} (hp : s.phase = .prga) (h : Inv { s with phase := .idle })
    (hk : (s.op = opCipher ∨ s.op = opGenerate) ∧ s.k.toNat < s.dataLen.toNat ∧ s.dataLen.toNat ≤ s.dbufSize) :
    Inv s :=
  { h with
    ksaPhase := fun hq => nomatch hp.symm.trans hq
    prgaPhase := fun _ => hk
    mxPhase := fun hq => nomatch hp.symm.trans hq }

theorem inv_of_mx {s : State} (hp : s.phase = .mx) (h : Inv { s with phase := .idle })
    (hm : s.e ≠ 0#32 ∧ s.m ≠ 0#32) : Inv s :=
  { h with
    ksaPhase := fun hq => nomatch hp.symm.trans hq
    prgaPhase := fun hq => nomatch hp.symm.trans hq
    mxPhase := fun _ => hm }

/-- The codes of 60_exceptions.md R161 are 0 to 5. -/
theorem codeBits_le (code : Code) : (codeBits code).toNat ≤ 5 := by cases code <;> decide

/-- A completion leaves a legal state. -/
theorem inv_complete {s : State} (h : Inv { s with phase := .idle }) (code : Code) : Inv (complete code s) :=
  { h with errCode := codeBits_le code }

/-- The flags, the response and the model's draw counter take no part in `Inv`. -/
theorem inv_bookkeeping {s : State} (h : Inv s) (done ovr ie : Bool) (resp : Option BusResponse) (draws : Nat) :
    Inv { s with done := done, ovr := ovr, ie := ie, resp := resp, draws := draws } :=
  { h with }

theorem inv_respondWrite {s : State} (h : Inv s) (err : Bool) : Inv (respondWrite err s) :=
  inv_bookkeeping h s.done s.ovr s.ie (some (.write err)) s.draws

/-- A register the host writes takes part in `Inv` only while a command runs. -/
theorem inv_hostRegisters {s : State} (h : Inv s) (hp : s.phase = .idle) (keyLen : BitVec 9) (dataLen : BitVec 17)
    (base exp mod : Word) :
    Inv { s with keyLen := keyLen, dataLen := dataLen, mxBase := base, mxExp := exp, mxMod := mod } :=
  { h with
    ksaPhase := fun hq => nomatch hp.symm.trans hq
    prgaPhase := fun hq => nomatch hp.symm.trans hq }

theorem Inv.storesWf {s : State} (h : Inv s) : StoresWf s := ⟨h.keyCells, h.permCells, h.dataCells⟩

theorem inv_keyStore {s : State} (h : Inv s) {m : Memory} (hm : Memory.wf .key 256 m = true) :
    Inv { s with keyStore := m } :=
  { h with keyCells := hm }

theorem inv_dataStore {s : State} (h : Inv s) {m : Memory} (hm : Memory.wf .data s.dbufSize m = true) :
    Inv { s with dataStore := m } :=
  { h with dataCells := hm }

theorem inv_permStore {s : State} (h : Inv s) {m : Memory} (hm : PermLegal { s with permStore := m }) :
    Inv { s with permStore := m } :=
  { h with permBijective := hm.2, permCells := hm.1 }

/-- The RC4 engine's registers, the phase apart, need no more than the ranges of e.c and e.kidx. -/
theorem inv_rc4Registers {s : State} (h : Inv s) {c kidx : BitVec 9} (hc : c.toNat ≤ 256) (hk : kidx.toNat ≤ 256)
    (op i j : Byte) (k : BitVec 17) :
    Inv { s with op := op, c := c, kidx := kidx, i := i, j := j, k := k, phase := .idle } :=
  { inv_idle h with cRange := hc, kidxRange := hk, ksaPhase := nofun, prgaPhase := nofun }

/-- The MODEXP engine's registers, the phase apart, need no more than reduced e.b and e.acc (41_modexp.md R143). -/
theorem inv_mxRegisters {s : State} (h : Inv s) {acc : BitVec 64} {b m : Word}
    (hred : m ≠ 0#32 → b.toNat < m.toNat ∧ acc.toNat < m.toNat) (e result : Word) :
    Inv { s with acc := acc, b := b, e := e, m := m, mxResult := result, phase := .idle } :=
  { inv_idle h with mxReduced := hred, mxPhase := nofun }

/-! ## The three engines -/

/-- The key-index counter counts modulo KEYLEN: it stays e.c mod KEYLEN (40_rc4.md R113). -/
theorem nextKidx_toNat {keyLen kidx : BitVec 9} {c : Nat} (hlen : keyLen ≠ 0#9) (hc : c < 256)
    (hk : kidx.toNat = c % keyLen.toNat) : (nextKidx keyLen kidx).toNat = (c + 1) % keyLen.toNat := by
  have hlt : c % keyLen.toNat < keyLen.toNat := Nat.mod_lt c (BitVec.toNat_pos_of_ne_zero hlen)
  have hle : c % keyLen.toNat ≤ c := Nat.mod_le c _
  have hsucc : (kidx + 1#9).toNat = c % keyLen.toNat + 1 := by
    rw [BitVec.toNat_add, hk, BitVec.toNat_ofNat]
    omega
  rw [← Nat.mod_add_mod]
  unfold nextKidx
  split_ifs with hwrap
  · rw [← hsucc, hwrap, Nat.mod_self]
    rfl
  · have hne : (kidx + 1#9).toNat ≠ keyLen.toNat := fun h => hwrap (BitVec.eq_of_toNat_eq h)
    rw [← hsucc, Nat.mod_eq_of_lt (by omega)]

/-- The end of a KSA step: the schedule goes on, goes over to generation, or completes (40_rc4.md R115). -/
theorem inv_ksaEnd {s : State} (hp : s.phase = .ksa) (h : Inv { s with phase := .idle }) (hlen : s.keyLen ≠ 0#9)
    (hkidx : s.kidx.toNat = s.c.toNat % s.keyLen.toNat)
    (hop : s.op = opCipher ∧ 1 ≤ s.dataLen.toNat ∧ s.dataLen.toNat ≤ s.dbufSize ∨ s.op = opSchedule) :
    Inv (ksaEnd s) := by
  unfold ksaEnd
  split_ifs with hend hcipher
  · obtain ⟨-, hpos, hle⟩ | hsched := hop
    · exact inv_of_prga rfl (inv_rc4Registers h h.cRange h.kidxRange s.op 0#8 0#8 0#17) ⟨.inl hcipher, hpos, hle⟩
    · exact absurd (hcipher.symm.trans hsched) (by decide)
  · exact inv_complete h .ok
  · have hne : s.c.toNat ≠ 256 := fun hc => hend (BitVec.eq_of_toNat_eq hc)
    have hle : s.c.toNat ≤ 256 := h.cRange
    exact inv_of_ksa hp h ⟨by omega, hlen, hkidx, hop⟩

theorem inv_ksaBody {s : State} (h : Inv s) (hp : s.phase = .ksa) : Inv (ksaBody s) := by
  obtain ⟨hc, hlen, hkidx, hop⟩ := h.ksaPhase hp
  have hc' : (s.c + 1#9).toNat = s.c.toNat + 1 := by
    rw [BitVec.toNat_add, BitVec.toNat_ofNat]
    omega
  have hkidx' : (nextKidx s.keyLen s.kidx).toNat = (s.c.toNat + 1) % s.keyLen.toNat := nextKidx_toNat hlen hc hkidx
  have hrange : (nextKidx s.keyLen s.kidx).toNat ≤ 256 :=
    hkidx' ▸ (Nat.mod_le _ _).trans (by omega)
  have hperm : PermLegal { s with permStore := (ksaSwap s).permStore } :=
    permLegal_congr (permLegal_ksaSwap ⟨h.permCells, h.permBijective⟩) rfl
  unfold ksaBody
  rw [ksaAdvance_ksaSwap_eq]
  exact inv_ksaEnd hp (inv_rc4Registers (inv_permStore h hperm) (hc'.trans_le hc) hrange s.op s.i (ksaJ s) s.k) hlen
    (hkidx'.trans (by rw [← hc'])) hop

/-- The end of a PRGA step: the generation goes on or completes (40_rc4.md R118). -/
theorem inv_prgaEnd {s : State} (hp : s.phase = .prga) (h : Inv { s with phase := .idle })
    (hop : s.op = opCipher ∨ s.op = opGenerate) (hk : s.k.toNat ≤ s.dataLen.toNat)
    (hle : s.dataLen.toNat ≤ s.dbufSize) : Inv (prgaEnd s) := by
  unfold prgaEnd
  split_ifs with hend
  · exact inv_complete h .ok
  · have hne : s.k.toNat ≠ s.dataLen.toNat := fun hk => hend (BitVec.eq_of_toNat_eq hk)
    exact inv_of_prga hp h ⟨hop, by omega, hle⟩

theorem inv_prgaBody {s : State} (h : Inv s) (hp : s.phase = .prga) : Inv (prgaBody s) := by
  obtain ⟨hop, hk, hle⟩ := h.prgaPhase hp
  have hk' : (s.k + 1#17).toNat ≤ s.dataLen.toNat := by
    have := s.dataLen.isLt
    rw [BitVec.toNat_add, BitVec.toNat_ofNat]
    omega
  have hperm : PermLegal { s with permStore := (prgaSwap s).permStore } :=
    permLegal_congr (permLegal_prgaSwap ⟨h.permCells, h.permBijective⟩) rfl
  have hdata : Memory.wf .data s.dbufSize (prgaCombine (prgaSwap s)).dataStore = true :=
    Memory.wf_write (hk.trans_le hle) h.dataCells
  unfold prgaBody
  rw [prgaCombine_prgaSwap_eq]
  exact inv_prgaEnd hp
    (inv_rc4Registers (inv_dataStore (inv_permStore h hperm) hdata) h.cRange h.kidxRange s.op _ _ _) hop hk' hle

/-- A remainder fits any word it is put in, or is cut to something smaller. -/
theorem toNat_ofNat_mod_lt (w x : Nat) {m : Word} (hm : m ≠ 0#32) : (BitVec.ofNat w (x % m.toNat)).toNat < m.toNat := by
  rw [BitVec.toNat_ofNat]
  exact (Nat.mod_le _ _).trans_lt (Nat.mod_lt x (BitVec.toNat_pos_of_ne_zero hm))

/-- The accumulator stays reduced (41_modexp.md R143). -/
theorem mxAcc_lt {s : State} (hm : s.m ≠ 0#32) (hacc : s.acc.toNat < s.m.toNat) : (mxAcc s).toNat < s.m.toNat := by
  unfold mxAcc
  split_ifs
  · exact toNat_ofNat_mod_lt 64 _ hm
  · exact hacc

theorem inv_mxBody {s : State} (h : Inv s) (hp : s.phase = .mx) : Inv (mxBody s) := by
  obtain ⟨-, hm⟩ := h.mxPhase hp
  have hregs := inv_mxRegisters h (fun _ => And.intro (toNat_ofNat_mod_lt 32 (s.b.toNat * s.b.toNat) hm)
    (mxAcc_lt hm (h.mxReduced hm).2)) (s.e >>> 1)
  unfold mxBody mxEnd
  split_ifs with he
  · exact inv_complete (hregs _) .ok
  · exact inv_of_mx hp (hregs s.mxResult) ⟨he, hm⟩

/-- MODEXP's issue: the zero modulus touches no engine register, any other reduces them (41_modexp.md R140, R141). -/
theorem inv_mxIssue {s : State} (h : Inv s) : Inv (mxIssue s) := by
  unfold mxIssue
  split_ifs with hm
  · exact inv_complete (inv_mxRegisters h h.mxReduced s.e 0#32) .zeroModulus
  · have hregs := inv_mxRegisters h (fun _ => And.intro (toNat_ofNat_mod_lt 32 s.mxBase.toNat hm)
      (toNat_ofNat_mod_lt 64 1 hm)) s.mxExp
    unfold mxStart
    split_ifs with he
    · exact inv_complete (hregs _) .ok
    · exact inv_of_mx rfl (hregs s.mxResult) ⟨he, hm⟩

/-! ## Starting an RC4 command -/

theorem keyLenCode_eq_none_iff {s : State} : keyLenCode s = none ↔ s.keyLen ≠ 0#9 := by
  unfold keyLenCode
  split_ifs with h <;> simp [h]

theorem dataLenCode_eq_none_iff {s : State} :
    dataLenCode s = none ↔ 1 ≤ s.dataLen.toNat ∧ s.dataLen.toNat ≤ s.dbufSize := by
  unfold dataLenCode
  split_ifs with h0 hrange
  · simp [h0]
  · simp only [false_iff]
    omega
  · have hpos := BitVec.toNat_pos_of_ne_zero h0
    simp only [true_iff]
    omega

theorem cipherCode_eq_none_iff {s : State} : cipherCode s = none ↔ dataLenCode s = none ∧ keyLenCode s = none := by
  unfold cipherCode
  cases dataLenCode s <;> simp

/-- A started schedule is at its first position (40_rc4.md R114). -/
theorem inv_startKsa {s : State} (h : Inv s) {opc : Byte} (hlen : s.keyLen ≠ 0#9)
    (hop : opc = opCipher ∧ 1 ≤ s.dataLen.toNat ∧ s.dataLen.toNat ≤ s.dbufSize ∨ opc = opSchedule) :
    Inv (startKsa opc s) :=
  inv_of_ksa rfl
    (inv_rc4Registers (inv_permStore h (permLegal_of_nil rfl)) (c := 0#9) (kidx := 0#9)
      (Nat.zero_le 256) (Nat.zero_le 256) opc s.i 0#8 s.k)
    ⟨Nat.zero_lt_succ 255, hlen, (Nat.zero_mod _).symm, hop⟩

/-- A started generation is at its first position (40_rc4.md R117). -/
theorem inv_startPrga {s : State} (h : Inv s) (hlen : 1 ≤ s.dataLen.toNat ∧ s.dataLen.toNat ≤ s.dbufSize) :
    Inv (startPrga opGenerate s) :=
  inv_of_prga rfl (inv_rc4Registers h h.cRange h.kidxRange opGenerate 0#8 0#8 0#17) ⟨.inr rfl, hlen⟩

/-! ## Every step -/

theorem inv_of_effect {ev : Event} {s t : State} (h : Effect ev s t) (hs : Inv s) : Inv t := by
  cases h with
  | engineIdle => exact hs
  | ksa hp => exact inv_ksaBody hs hp
  | prga hp => exact inv_prgaBody hs hp
  | mx hp => exact inv_mxBody hs hp
  | reset p => exact inv_afterReset s.cfg (p.map resetResponse) (s.epoch + 1) s.draws s.inputs
  | read | ignored | status | ctrl | gated => exact inv_bookkeeping hs _ _ _ _ _
  | register hp => exact inv_respondWrite (inv_hostRegisters hs hp _ _ _ _ _) _
  | @keyWord _ w _ _ hw _ v =>
    have hwf := storesWf_storeWord (st := .key) (word := v) (by simp only [State.storeSize]; omega : 4 * w + 4 ≤ _)
      hs.storesWf
    rw [storeWord_key_eq]
    exact inv_respondWrite (inv_keyStore hs hwf.key) _
  | @dataWord _ w _ _ hw _ v =>
    have hsize := dbufSize_mod_four s
    have hwf := storesWf_storeWord (st := .data) (word := v) (by simp only [State.storeSize]; omega : 4 * w + 4 ≤ _)
      hs.storesWf
    rw [storeWord_data_eq]
    exact inv_respondWrite (inv_dataStore hs hwf.data) _
  | rejected => exact inv_respondWrite (inv_complete (inv_idle hs) _) _
  | cipher hp ho hcode =>
    obtain ⟨hdata, hkey⟩ := cipherCode_eq_none_iff.1 hcode
    exact inv_respondWrite (inv_startKsa hs (keyLenCode_eq_none_iff.1 hkey)
      (.inl ⟨rfl, dataLenCode_eq_none_iff.1 hdata⟩)) _
  | schedule hp ho hcode =>
    exact inv_respondWrite (inv_startKsa hs (keyLenCode_eq_none_iff.1 hcode) (.inr rfl)) _
  | generate hp ho hcode => exact inv_respondWrite (inv_startPrga hs (dataLenCode_eq_none_iff.1 hcode)) _
  | modexp => exact inv_respondWrite (inv_mxIssue hs) _

/-- Settles O29: the events to come take no part in `Inv`, and every effect keeps it. -/
theorem stepKeepsLegalStates : Obligations.StepKeepsLegalStates := by
  intro s t hs h
  obtain ⟨ev, rest, -, he⟩ := step_effect h
  exact inv_of_effect he { hs with }

/-- Every state of a run from a legal state is legal. -/
theorem inv_of_run {n : Nat} {s t : State} (hs : Inv s) (h : run n s = .next t) : Inv t := by
  induction n generalizing s with
  | zero => cases h; exact hs
  | succ n ih =>
    obtain ⟨u, hu, hr⟩ := run_succ_inv h
    exact ih (stepKeepsLegalStates s u hs hu) hr

/-- Settles O31: runs from reset stay legal, and every effect keeps a canonical S a bijection. -/
theorem permutationIsAlwaysABijection : Obligations.PermutationIsAlwaysABijection := by
  refine ⟨fun g evs n t h => (inv_of_run (resetStateIsLegal.2 g evs) h).permBijective, fun s t hwf hb h => ?_⟩
  obtain ⟨ev, rest, -, he⟩ := step_effect h
  exact (permLegal_of_effect he (permLegal_congr ⟨hwf, hb⟩ rfl)).2

end Sys2Proof.Machine

/-! PROOFS. What each event leaves of the flags, of the completion record and of MX_RESULT, and so when they change
(10_state.md R24 to R34; 60_exceptions.md R161 to R163). -/

namespace Sys2Proof.Machine

/-! ## The bodies' frames -/

@[simp] theorem ksaBody_cfg (s : State) : (ksaBody s).cfg = s.cfg := by unfold ksaBody ksaEnd; split_ifs <;> rfl
@[simp] theorem ksaBody_ovr (s : State) : (ksaBody s).ovr = s.ovr := by unfold ksaBody ksaEnd; split_ifs <;> rfl
@[simp] theorem ksaBody_mxResult (s : State) : (ksaBody s).mxResult = s.mxResult := by
  unfold ksaBody ksaEnd; split_ifs <;> rfl

@[simp] theorem prgaBody_cfg (s : State) : (prgaBody s).cfg = s.cfg := by unfold prgaBody prgaEnd; split_ifs <;> rfl
@[simp] theorem prgaBody_ovr (s : State) : (prgaBody s).ovr = s.ovr := by unfold prgaBody prgaEnd; split_ifs <;> rfl
@[simp] theorem prgaBody_mxResult (s : State) : (prgaBody s).mxResult = s.mxResult := by
  unfold prgaBody prgaEnd; split_ifs <;> rfl

@[simp] theorem mxBody_cfg (s : State) : (mxBody s).cfg = s.cfg := by unfold mxBody mxEnd; split_ifs <;> rfl
@[simp] theorem mxBody_ovr (s : State) : (mxBody s).ovr = s.ovr := by unfold mxBody mxEnd; split_ifs <;> rfl

@[simp] theorem mxIssue_cfg (s : State) : (mxIssue s).cfg = s.cfg := by unfold mxIssue mxStart; split_ifs <;> rfl
@[simp] theorem mxIssue_ovr (s : State) : (mxIssue s).ovr = s.ovr := by unfold mxIssue mxStart; split_ifs <;> rfl

/-! ## The parameters -/

theorem cfg_of_effect {ev : Event} {s t : State} (h : Effect ev s t) : t.cfg = s.cfg := by
  cases h with
  | ksa | prga | mx | modexp | keyWord | dataWord => simp
  | _ => rfl

/-- Settles O32: no event writes the parameters, and offset 0x24 decodes to CFG in every state. -/
theorem configurationIsConstant : Obligations.ConfigurationIsConstant := by
  refine ⟨fun s t h => ?_, fun s => ?_⟩
  · obtain ⟨ev, rest, -, he⟩ := step_effect h
    exact (cfg_of_effect he :)
  · have hloc : locate s.dbufSize 0x00024#17 = .cfg := locate_eq rfl
    simp [ReadsAs, busAccess, busRead, hloc, readLoc, unspecifiedWhileBusy]

/-! ## OVR -/

theorem ovr_of_effect {ev : Event} {s t : State} (h : Effect ev s t) :
    t.ovr = s.ovr ∨ (∃ p, ev = .reset p ∧ t.ovr = false) ∨
    (∃ off v, ev = .access (.write off v) ∧ s.busy = true ∧ GatedOffset s.dbufSize off.toNat ∧ t.ovr = true) ∨
    (∃ off v, ev = .access (.write off v) ∧ off.toNat = 0x00004 ∧ t.ovr = (s.ovr && !v.getLsbD 2)) := by
  cases h with
  | reset p => exact .inr (.inl ⟨p, rfl, rfl⟩)
  | gated hb hg v => exact .inr (.inr (.inl ⟨_, v, rfl, hb, hg, rfl⟩))
  | status ho v => exact .inr (.inr (.inr ⟨_, v, rfl, ho, rfl⟩))
  | ksa | prga | mx | modexp | keyWord | dataWord => exact .inl (by simp)
  | _ => exact .inl rfl

/-- Settles O50, from what each event leaves of OVR. -/
theorem ovrChangesOnlyAsItsRuleSays : Obligations.OvrChangesOnlyAsItsRuleSays := by
  intro s t h
  obtain ⟨ev, rest, hev, he⟩ := step_effect h
  obtain hsame | ⟨p, rfl, hf⟩ | ⟨off, v, rfl, hb, hg, ht⟩ | ⟨off, v, rfl, ho, hclear⟩ := ovr_of_effect he
  · rw [hsame]
    exact ⟨fun h0 h1 => absurd (h0.symm.trans h1) (by decide), fun h1 h0 => absurd (h1.symm.trans h0) (by decide)⟩
  · exact ⟨fun _ h1 => absurd (hf.symm.trans h1) (by decide), fun _ _ => .inl hev.resetNext⟩
  · exact ⟨fun _ _ => ⟨hb, _, v, hev.writeNext rfl, hg⟩, fun _ h0 => absurd (ht.symm.trans h0) (by decide)⟩
  · rw [hclear]
    exact ⟨fun h0 h1 => by simp [h0] at h1, fun h1 h0 => .inr ⟨v, hev.writeNext ho, by simpa [h1] using h0⟩⟩

/-! ## The completion record -/

/-- The state a completion with `code` leaves (60_exceptions.md R163). -/
structure Completed (code : Code) (t : State) : Prop where
  phase : t.phase = .idle
  done : t.done = true
  err : t.err = codeBits code

/-- The completion record stands, and no running command has ended. -/
structure RecordStands (s t : State) : Prop where
  busy : s.busy = true → t.busy = true
  done : t.done = s.done
  err : t.err = s.err

theorem Completed.respondWrite {code : Code} {t : State} (h : Completed code t) (err : Bool) :
    Completed code (respondWrite err t) :=
  ⟨h.phase, h.done, h.err⟩

theorem RecordStands.respondWrite {s t : State} (h : RecordStands s t) (err : Bool) :
    RecordStands s (respondWrite err t) :=
  ⟨h.busy, h.done, h.err⟩

theorem completed_or_stands_ksaBody (s : State) : Completed .ok (ksaBody s) ∨ RecordStands s (ksaBody s) := by
  unfold ksaBody ksaEnd
  split_ifs
  · exact .inr ⟨fun _ => rfl, rfl, rfl⟩
  · exact .inl ⟨rfl, rfl, rfl⟩
  · exact .inr ⟨id, rfl, rfl⟩

theorem completed_or_stands_prgaBody (s : State) : Completed .ok (prgaBody s) ∨ RecordStands s (prgaBody s) := by
  unfold prgaBody prgaEnd
  split_ifs
  · exact .inl ⟨rfl, rfl, rfl⟩
  · exact .inr ⟨id, rfl, rfl⟩

/-- An MX step writes MX_RESULT only where it completes (41_modexp.md R142, R143). -/
theorem completed_or_stands_mxBody (s : State) :
    Completed .ok (mxBody s) ∨ RecordStands s (mxBody s) ∧ (mxBody s).mxResult = s.mxResult := by
  unfold mxBody mxEnd
  split_ifs
  · exact .inl ⟨rfl, rfl, rfl⟩
  · exact .inr ⟨⟨id, rfl, rfl⟩, rfl⟩

/-- MODEXP's issue step writes MX_RESULT only where it completes (41_modexp.md R140). -/
theorem completed_or_stands_mxIssue (s : State) :
    (∃ code, Completed code (mxIssue s)) ∨ RecordStands s (mxIssue s) ∧ (mxIssue s).mxResult = s.mxResult := by
  unfold mxIssue mxStart
  split_ifs
  · exact .inl ⟨.zeroModulus, rfl, rfl, rfl⟩
  · exact .inl ⟨.ok, rfl, rfl, rfl⟩
  · exact .inr ⟨⟨fun _ => rfl, rfl, rfl⟩, rfl⟩

/-- An event resets the record, completes a command, acknowledges at STATUS, or lets the record stand; a command that
was running completes with OK. -/
theorem record_of_effect {ev : Event} {s t : State} (h : Effect ev s t) :
    (∃ p, ev = .reset p ∧ t.done = false) ∨
    (∃ code, Completed code t ∧ (s.busy = true → code = .ok)) ∨
    (∃ off v, ev = .access (.write off v) ∧ off.toNat = 0x00004 ∧ t.busy = s.busy ∧ t.err = s.err ∧
      t.done = (s.done && !v.getLsbD 1)) ∨
    RecordStands s t := by
  cases h with
  | reset p => exact .inl ⟨p, rfl, rfl⟩
  | status ho v => exact .inr (.inr (.inl ⟨_, v, rfl, ho, rfl, rfl, rfl⟩))
  | rejected hp _ _ code =>
    exact .inr (.inl ⟨code, ⟨rfl, rfl, rfl⟩, fun hb => absurd hp (busy_eq_true_iff.1 hb)⟩)
  | ksa =>
    obtain hc | hsame := completed_or_stands_ksaBody s
    · exact .inr (.inl ⟨.ok, hc, fun _ => rfl⟩)
    · exact .inr (.inr (.inr hsame))
  | prga =>
    obtain hc | hsame := completed_or_stands_prgaBody s
    · exact .inr (.inl ⟨.ok, hc, fun _ => rfl⟩)
    · exact .inr (.inr (.inr hsame))
  | mx =>
    obtain hc | ⟨hsame, -⟩ := completed_or_stands_mxBody s
    · exact .inr (.inl ⟨.ok, hc, fun _ => rfl⟩)
    · exact .inr (.inr (.inr hsame))
  | modexp hp =>
    obtain ⟨code, hc⟩ | ⟨hsame, -⟩ := completed_or_stands_mxIssue s
    · exact .inr (.inl ⟨code, hc.respondWrite false, fun hb => absurd hp (busy_eq_true_iff.1 hb)⟩)
    · exact .inr (.inr (.inr (hsame.respondWrite false)))
  | keyWord | dataWord => exact .inr (.inr (.inr ⟨by simp [State.busy], by simp, by simp⟩))
  | cipher | schedule | generate => exact .inr (.inr (.inr ⟨fun _ => rfl, rfl, rfl⟩))
  | _ => exact .inr (.inr (.inr ⟨id, rfl, rfl⟩))

/-- Settles O49, from what each event does to the completion record. -/
theorem doneChangesOnlyAsItsRuleSays : Obligations.DoneChangesOnlyAsItsRuleSays := by
  intro s t h
  obtain ⟨ev, rest, hev, he⟩ := step_effect h
  obtain ⟨p, rfl, hf⟩ | ⟨code, hc, hok⟩ | ⟨off, v, rfl, ho, hbusy, -, hdone⟩ | hsame := record_of_effect he
  · exact ⟨fun _ _ => .inl hev.resetNext, fun _ h1 => absurd (hf.symm.trans h1) (by decide),
      fun _ _ => .inl hev.resetNext⟩
  · refine ⟨fun _ h0 => absurd (hc.done.symm.trans h0) (by decide),
      fun _ _ => ⟨hc.phase, hc.err ▸ codeBits_le code⟩, fun hb _ => .inr ⟨hc.done, ?_⟩⟩
    rw [hc.err, hok hb]
    rfl
  · rw [hdone]
    exact ⟨fun h1 h0 => .inr ⟨v, hev.writeNext ho, by simpa [h1] using h0⟩, fun h0 h1 => by simp [h0] at h1,
      fun hb h0 => absurd ((hbusy.trans hb).symm.trans h0) (by decide)⟩
  · rw [hsame.done]
    exact ⟨fun h1 h0 => absurd (h1.symm.trans h0) (by decide), fun h0 h1 => absurd (h1.symm.trans h0) (by decide),
      fun hb h0 => absurd ((hsame.busy hb).symm.trans h0) (by decide)⟩

/-- Settles O51, from the same law of the completion record. -/
theorem errIsWrittenOnlyByACompletion : Obligations.ErrIsWrittenOnlyByACompletion := by
  intro s t h hne
  obtain ⟨ev, rest, hev, he⟩ := step_effect h
  obtain ⟨p, rfl, -⟩ | ⟨code, hc, -⟩ | ⟨_, _, -, -, -, herr, -⟩ | hsame := record_of_effect he
  · exact .inl hev.resetNext
  · exact .inr ⟨hc.phase, hc.done, hc.err ▸ codeBits_le code⟩
  · exact absurd herr hne
  · exact absurd hsame.err hne

/-! ## MX_RESULT -/

theorem mxResult_of_effect {ev : Event} {s t : State} (h : Effect ev s t) :
    t.mxResult = s.mxResult ∨ (∃ p, ev = .reset p) ∨
    ((∃ code, Completed code t) ∧
      (s.phase = .mx ∧ ev = .engine ∨
        s.phase = .idle ∧ ∃ off, off.toNat = 0x00000 ∧ ev = .access (.write off (encode .modexp)))) := by
  cases h with
  | reset p => exact .inr (.inl ⟨p, rfl⟩)
  | mx hp =>
    obtain hc | ⟨-, hsame⟩ := completed_or_stands_mxBody s
    · exact .inr (.inr ⟨⟨.ok, hc⟩, .inl ⟨hp, rfl⟩⟩)
    · exact .inl hsame
  | modexp hp ho =>
    obtain ⟨code, hc⟩ | ⟨-, hsame⟩ := completed_or_stands_mxIssue s
    · exact .inr (.inr ⟨⟨code, hc.respondWrite false⟩, .inr ⟨hp, _, ho, rfl⟩⟩)
    · exact .inl hsame
  | ksa | prga | keyWord | dataWord => exact .inl (by simp)
  | _ => exact .inl rfl

/-- Settles O52: MODEXP's two writers of MX_RESULT write it only where they complete. -/
theorem resultIsWrittenOnlyByModexp : Obligations.ResultIsWrittenOnlyByModexp := by
  intro s t h hne
  obtain ⟨ev, rest, hev, he⟩ := step_effect h
  obtain hsame | ⟨p, rfl⟩ | ⟨⟨code, hc⟩, ⟨hp, rfl⟩ | ⟨hp, off, ho, rfl⟩⟩ := mxResult_of_effect he
  · exact absurd hsame hne
  · exact .inl hev.resetNext
  · exact .inr ⟨hc.phase, hc.done, .inl ⟨hp, hev.engineNext⟩⟩
  · exact .inr ⟨hc.phase, hc.done, .inr ⟨hp, hev.writeNext ho⟩⟩

end Sys2Proof.Machine

/-! PROOFS. Who writes the bytes of the three stores (10_state.md R36 to R38). -/

namespace Sys2Proof.Machine

@[simp] theorem load_respondWrite (err : Bool) (s : State) (st : Store) (x : Nat) :
    (respondWrite err s).load st x = s.load st x := by
  cases st <;> rfl

@[simp] theorem load_mxIssue (s : State) (st : Store) (x : Nat) : (mxIssue s).load st x = s.load st x := by
  unfold mxIssue mxStart
  split_ifs <;> cases st <;> rfl

/-- A window word written leaves every other store. -/
theorem load_storeWord_other {st st' : Store} (hst : st ≠ .perm) (hne : st' ≠ st) (w x : Nat) (v : Word) (s : State) :
    (storeWord st w v s).load st' x = s.load st' x := by
  rw [load_storeWord hst, if_neg fun h => hne h.1]

/-- A window word written leaves every other word of its store (20_memory.md R64). -/
theorem load_storeWord_eq_or {st : Store} (hst : st ≠ .perm) (w x : Nat) (v : Word) (s : State) :
    (storeWord st w v s).load st x = s.load st x ∨ w = x / 4 := by
  by_cases hw : w = x / 4
  · exact .inr hw
  · exact .inl (by rw [load_storeWord hst, if_neg (by omega)])

/-- Only the host writes KEY, while BUSY = 0. -/
theorem key_of_effect {ev : Event} {s t : State} (h : Effect ev s t) (x : Nat) :
    t.load .key x = s.load .key x ∨ (∃ p, ev = .reset p) ∨
    (s.phase = .idle ∧ x < 256 ∧ ∃ off v, ev = .access (.write off v) ∧ off.toNat = 0x00100 + 4 * (x / 4)) := by
  cases h with
  | reset p => exact .inr (.inl ⟨p, rfl⟩)
  | ksa => exact .inl (load_ksaBody_other s x (by decide))
  | prga => exact .inl (load_key_prgaBody s x)
  | mx => exact .inl (load_mxBody s .key x)
  | modexp => exact .inl (by simp)
  | @keyWord _ w off hp hw ho v =>
    obtain hsame | rfl := load_storeWord_eq_or (st := .key) (by decide) w x v s
    · exact .inl (by rw [load_respondWrite, hsame])
    · exact .inr (.inr ⟨hp, by omega, off, v, rfl, ho⟩)
  | dataWord => exact .inl (by rw [load_respondWrite, load_storeWord_other (by decide) (by decide)])
  | _ => exact .inl rfl

/-- The host writes DATA while BUSY = 0, and a PRGA step at e.k. -/
theorem data_of_effect {ev : Event} {s t : State} (h : Effect ev s t) (x : Nat) :
    t.load .data x = s.load .data x ∨ (∃ p, ev = .reset p) ∨
    (s.phase = .idle ∧ x < s.dbufSize ∧
      ∃ off v, ev = .access (.write off v) ∧ off.toNat = 0x10000 + 4 * (x / 4)) ∨
    (s.phase = .prga ∧ ev = .engine ∧ x = s.k.toNat ∧ x < s.dataLen.toNat) := by
  cases h with
  | reset p => exact .inr (.inl ⟨p, rfl⟩)
  | ksa => exact .inl (load_ksaBody_other s x (by decide))
  | prga hp hk =>
    by_cases hx : x = s.k.toNat
    · exact .inr (.inr (.inr ⟨hp, rfl, hx, hx ▸ hk⟩))
    · exact .inl (by rw [load_data_prgaBody, if_neg hx])
  | mx => exact .inl (load_mxBody s .data x)
  | modexp => exact .inl (by simp)
  | keyWord => exact .inl (by rw [load_respondWrite, load_storeWord_other (by decide) (by decide)])
  | @dataWord _ w off hp hw ho v =>
    have hsize := dbufSize_mod_four s
    obtain hsame | rfl := load_storeWord_eq_or (st := .data) (by decide) w x v s
    · exact .inl (by rw [load_respondWrite, hsame])
    · exact .inr (.inr (.inl ⟨hp, by omega, off, v, rfl, ho⟩))
  | _ => exact .inl rfl

/-- S is written by the start of a command that schedules, and by a KSA or PRGA step. -/
theorem perm_of_effect {ev : Event} {s t : State} (h : Effect ev s t) (x : Nat) :
    t.load .perm x = s.load .perm x ∨ (∃ p, ev = .reset p) ∨
    (s.phase = .idle ∧ ∃ off v, ev = .access (.write off v) ∧ off.toNat = 0x00000 ∧
      (v = encode .rc4Cipher ∨ v = encode .rc4Schedule)) ∨
    ((s.phase = .ksa ∨ s.phase = .prga) ∧ ev = .engine ∧ x < 256) := by
  cases h with
  | reset p => exact .inr (.inl ⟨p, rfl⟩)
  | cipher hp ho => exact .inr (.inr (.inl ⟨hp, _, _, rfl, ho, .inl rfl⟩))
  | schedule hp ho => exact .inr (.inr (.inl ⟨hp, _, _, rfl, ho, .inr rfl⟩))
  | ksa hp =>
    by_cases hx : x < 256
    · exact .inr (.inr (.inr ⟨.inl hp, rfl, hx⟩))
    · exact .inl (load_perm_ksaBody_beyond s (by omega))
  | prga hp =>
    by_cases hx : x < 256
    · exact .inr (.inr (.inr ⟨.inr hp, rfl, hx⟩))
    · exact .inl (load_perm_prgaBody_beyond s (by omega))
  | mx => exact .inl (load_mxBody s .perm x)
  | modexp => exact .inl (by simp)
  | keyWord | dataWord => exact .inl (by rw [load_respondWrite, load_storeWord_other (by decide) (by decide)])
  | _ => exact .inl rfl

/-- Settles O53, from what each event leaves of a byte of KEY, DATA and S. -/
theorem storesAreWrittenOnlyAsTheirRulesSay : Obligations.StoresAreWrittenOnlyAsTheirRulesSay := by
  intro s t x h hr
  obtain ⟨ev, rest, hev, he⟩ := step_effect h
  refine ⟨fun hne => ?_, fun hne => ?_, fun hne => ?_⟩
  · obtain hsame | ⟨p, rfl⟩ | ⟨hp, hx, off, v, rfl, ho⟩ := key_of_effect he x
    · exact absurd hsame hne
    · exact absurd hev.resetNext hr
    · exact ⟨busy_eq_false_iff.2 hp, hx, v, hev.writeNext ho⟩
  · obtain hsame | ⟨p, rfl⟩ | ⟨hp, hx, off, v, rfl, ho⟩ | ⟨hp, rfl, hx⟩ := data_of_effect he x
    · exact absurd hsame hne
    · exact absurd hev.resetNext hr
    · exact .inl ⟨busy_eq_false_iff.2 hp, hx, v, hev.writeNext ho⟩
    · exact .inr ⟨hp, hev.engineNext, hx⟩
  · obtain hsame | ⟨p, rfl⟩ | ⟨hp, off, v, rfl, ho, rfl | rfl⟩ | ⟨hp, rfl, hx⟩ := perm_of_effect he x
    · exact absurd hsame hne
    · exact absurd hev.resetNext hr
    · exact .inl ⟨busy_eq_false_iff.2 hp, .inl (hev.writeNext ho)⟩
    · exact .inl ⟨busy_eq_false_iff.2 hp, .inr (hev.writeNext ho)⟩
    · exact .inr ⟨hp, hev.engineNext, hx⟩

end Sys2Proof.Machine

/-! PROOFS. Reset's values, and the writes of single registers (10_state.md R24, R29 to R32, R44). -/

namespace Sys2Proof.Machine

/-- Any state with the registers of `State.afterReset` has the values of 10_state.md R44. -/
theorem hasResetValues_afterReset (g : Config) (resp : Option BusResponse) (epoch draws : Nat) (evs : List Event) :
    HasResetValues { State.afterReset g with resp := resp, epoch := epoch, draws := draws, inputs := evs } where
  busy := rfl
  done := rfl
  ovr := rfl
  err := rfl
  ie := rfl
  keyLen := rfl
  dataLen := rfl
  mxBase := rfl
  mxExp := rfl
  mxMod := rfl
  mxResult := rfl
  perm := permAt_of_nil rfl
  key _ _ := rfl
  data _ _ := rfl
  phase := rfl
  engine := ⟨rfl, rfl, rfl, rfl, rfl, rfl, rfl, rfl, rfl, rfl⟩
  irq := rfl

/-- Settles O26: a reset step leaves the registers of `State.afterReset`, from any state. -/
theorem resetGivesTheSpecifiedValues : Obligations.ResetGivesTheSpecifiedValues :=
  ⟨hasResetValues_afterReset defaultConfig none 0 0 [], fun s p =>
    ⟨_, step_resetting s p,
      hasResetValues_afterReset s.cfg (p.map resetResponse) (s.epoch + 1) s.draws s.inputs, rfl⟩⟩

/-- A write presented at a location other than CMD. -/
theorem step_presenting_write (s : State) (off : Offset) (v : Word) {l : Loc} (hl : LocAt s.dbufSize off.toNat l)
    (hcmd : l ≠ .cmd) :
    step (s.presenting (.write off v)) = .next (respondWrite (writeErr l) (writeLoc v s l)) := by
  have hloc := locate_eq hl
  rw [step_presenting, busAccess, busWrite_other (hloc ▸ hcmd), hloc]

/-- A write presented at a gated location while BUSY = 0 (70_reset_and_hazards.md R200). -/
theorem step_presenting_gated {s : State} (hb : s.busy = false) (off : Offset) (v : Word) {l : Loc}
    {write : State → State} (hl : LocAt s.dbufSize off.toNat l) (hcmd : l ≠ .cmd)
    (hgated : writeLoc v s l = gated write s) :
    step (s.presenting (.write off v)) = .next (respondWrite (writeErr l) (write s)) := by
  rw [step_presenting_write s off v hl hcmd, hgated, gated_idle hb]

/-- A bit of a word as a digit of its number. -/
theorem getLsbD_eq_decide (v : Word) (n : Nat) : v.getLsbD n = decide (v.toNat / 2 ^ n % 2 = 1) := by
  rw [BitVec.getLsbD, Nat.testBit_eq_decide_div_mod_eq]

/-- A flag that is cleared where a bit is 1. -/
theorem and_not_decide (b : Bool) (p : Prop) [Decidable p] : (b && !decide p) = if p then false else b := by
  split_ifs with hp <;> simp [hp]

/-- Settles O41: the two locations are not gated, and their bits are digits of the word's number. -/
theorem statusAndCtrlWritesAlwaysTakeEffect : Obligations.StatusAndCtrlWritesAlwaysTakeEffect := by
  intro s v
  refine ⟨?_, ?_⟩
  · rw [step_presenting_write s 0x00004#17 v (l := .status) rfl (by decide), writeLoc, writeStatus]
    simp only [getLsbD_eq_decide, and_not_decide]
    rfl
  · rw [step_presenting_write s 0x00008#17 v (l := .ctrl) rfl (by decide), writeLoc, writeCtrl, getLsbD_eq_decide]
    simp only [pow_zero, Nat.div_one]
    rfl

/-- The low bits of a word are its number's remainder. -/
theorem setWidth_eq_ofNat_mod (v : Word) (n : Nat) : v.setWidth n = BitVec.ofNat n (v.toNat % 2 ^ n) := by
  apply BitVec.eq_of_toNat_eq
  simp

/-- Settles O42: each of the five writes is the gated one, performed while BUSY = 0. -/
theorem idleRegisterWritesStoreTheirBits : Obligations.IdleRegisterWritesStoreTheirBits := by
  intro s v hb
  have hkeyLen : v.setWidth 9 = BitVec.ofNat 9 (v.toNat % 512) := setWidth_eq_ofNat_mod v 9
  have hdataLen : v.setWidth 17 = BitVec.ofNat 17 (v.toNat % 131072) := setWidth_eq_ofNat_mod v 17
  exact ⟨
    step_presenting_gated hb 0x0000C#17 v (l := .keyLen)
      (write := fun s => { s with keyLen := BitVec.ofNat 9 (v.toNat % 512) }) rfl (by decide)
      (by rw [writeLoc, hkeyLen]),
    step_presenting_gated hb 0x00010#17 v (l := .dataLen)
      (write := fun s => { s with dataLen := BitVec.ofNat 17 (v.toNat % 131072) }) rfl (by decide)
      (by rw [writeLoc, hdataLen]),
    step_presenting_gated hb 0x00014#17 v (l := .mxBase) (write := fun s => { s with mxBase := v }) rfl (by decide) rfl,
    step_presenting_gated hb 0x00018#17 v (l := .mxExp) (write := fun s => { s with mxExp := v }) rfl (by decide) rfl,
    step_presenting_gated hb 0x0001C#17 v (l := .mxMod) (write := fun s => { s with mxMod := v }) rfl (by decide) rfl⟩

end Sys2Proof.Machine

/-! PROOFS. The bus access by access: what a read or a write at a location answers, the windows of the three stores,
and what no access changes (20_memory.md R63 to R70; 70_reset_and_hazards.md R200, R201). -/

namespace Sys2Proof.Machine

/-! ## One access at a location -/

/-- A location's offset, presented at the port as a number. -/
theorem locAt_ofNat {size a : Nat} {l : Loc} (h : LocAt size a l) (ha : a < 131072) :
    LocAt size (BitVec.ofNat 17 a).toNat l := by
  rwa [BitVec.toNat_ofNat, Nat.mod_eq_of_lt ha]

/-- A read of a location that BUSY does not mask changes nothing but the response (70_reset_and_hazards.md R201). -/
theorem step_presenting_read {s : State} {off : Offset} {l : Loc} (hl : LocAt s.dbufSize off.toNat l)
    (hmask : (s.busy && unspecifiedWhileBusy l) = false) :
    step (s.presenting (.read off)) = .next { s with resp := some (readLoc s l) } := by
  simp only [step_presenting, busAccess, busRead, locate_eq hl, hmask, Bool.false_eq_true, if_false]

theorem readsAs_of_readLoc {s : State} {off : Offset} {l : Loc} {v : Word} (hl : LocAt s.dbufSize off.toNat l)
    (hmask : (s.busy && unspecifiedWhileBusy l) = false) (hread : readLoc s l = .read v false) : ReadsAs s off v := by
  rw [ReadsAs, step_presenting_read hl hmask, hread]

/-- A location that BUSY never masks reads as its exact value in every state. -/
theorem readsAs_exact {s : State} {off : Offset} {l : Loc} {v : Word} (hl : LocAt s.dbufSize off.toNat l)
    (hmask : unspecifiedWhileBusy l = false) (hread : readLoc s l = .read v false) : ReadsAs s off v :=
  readsAs_of_readLoc hl (by rw [hmask, Bool.and_false]) hread

/-- While BUSY = 0 every location reads as its exact value. -/
theorem readsAs_idle {s : State} (hb : s.busy = false) {off : Offset} {l : Loc} {v : Word}
    (hl : LocAt s.dbufSize off.toNat l) (hread : readLoc s l = .read v false) : ReadsAs s off v :=
  readsAs_of_readLoc hl (by rw [hb, Bool.false_and]) hread

/-- A write at a location that holds nothing writable changes nothing but the response (20_memory.md R63, R66, R67). -/
theorem step_presenting_ignored {s : State} {off : Offset} {v : Word} {l : Loc} (hl : LocAt s.dbufSize off.toNat l)
    (hcmd : l ≠ .cmd) (hw : writeLoc v s l = s) :
    step (s.presenting (.write off v)) = .next { s with resp := some (.write (writeErr l)) } := by
  rw [step_presenting_write s off v hl hcmd, hw, respondWrite]

theorem maskedRead_idle {s : State} (hb : s.busy = false) (exact : Word) : maskedRead s exact = exact := by
  simp [maskedRead, hb]

/-! ## The windows -/

/-- Word `w` of a store's window, as a location (20_memory.md R64). -/
def windowLoc : Store → Nat → Loc
  | .key, w => .key w
  | .perm, w => .perm w
  | .data, w => .data w

theorem windowLoc_ne_cmd (st : Store) (w : Nat) : windowLoc st w ≠ .cmd := by cases st <;> nofun

theorem writeErr_windowLoc (st : Store) (w : Nat) : writeErr (windowLoc st w) = false := by cases st <;> rfl

theorem readLoc_windowLoc {s : State} (hb : s.busy = false) (st : Store) (w : Nat) :
    readLoc s (windowLoc st w) = .read (loadWord s st w) false := by
  cases st with
  | key => rfl
  | perm | data => simp only [windowLoc, readLoc, maskedRead_idle hb]

theorem writeLoc_windowLoc {st : Store} (hst : st ≠ .perm) (w : Nat) (v : Word) (s : State) :
    writeLoc v s (windowLoc st w) = gated (storeWord st w v) s := by
  cases st with
  | key | data => rfl
  | perm => exact absurd rfl hst

theorem step_presenting_window {s : State} (hb : s.busy = false) {st : Store} (hst : st ≠ .perm) {w : Nat}
    {off : Offset} (hl : LocAt s.dbufSize off.toNat (windowLoc st w)) (v : Word) :
    step (s.presenting (.write off v)) = .next (respondWrite false (storeWord st w v s)) := by
  rw [step_presenting_gated hb off v hl (windowLoc_ne_cmd st w) (writeLoc_windowLoc hst w v s), writeErr_windowLoc]

theorem locAt_keyWindow (s : State) {w : Nat} (hw : w < 64) :
    LocAt s.dbufSize (BitVec.ofNat 17 (0x00100 + 4 * w)).toNat (windowLoc .key w) :=
  locAt_ofNat ⟨hw, rfl⟩ (by omega)

theorem locAt_permWindow (s : State) {w : Nat} (hw : w < 64) :
    LocAt s.dbufSize (BitVec.ofNat 17 (0x00200 + 4 * w)).toNat (windowLoc .perm w) :=
  locAt_ofNat ⟨hw, rfl⟩ (by omega)

theorem locAt_dataWindow {s : State} {w : Nat} (hw : 4 * w < s.dbufSize) :
    LocAt s.dbufSize (BitVec.ofNat 17 (0x10000 + 4 * w)).toNat (windowLoc .data w) :=
  locAt_ofNat ⟨hw, rfl⟩ (locate_mem_range hw)

/-- A window word's four bytes are those of the word written to it, and every other byte of the store stays
(20_memory.md R64). -/
theorem load_after_window_write {st : Store} (hst : st ≠ .perm) (w : Nat) (v : Word) (s : State) :
    (∀ n, n < 4 →
      ((respondWrite false (storeWord st w v s)).load st (4 * w + n)).toNat = v.toNat / 2 ^ (8 * n) % 256) ∧
    (∀ x, x / 4 ≠ w → (respondWrite false (storeWord st w v s)).load st x = s.load st x) := by
  refine ⟨fun n hn => ?_, fun x hx => ?_⟩ <;> rw [load_respondWrite]
  · rw [load_storeWord hst, if_pos ⟨rfl, by omega, by omega⟩, Nat.add_sub_cancel_left, byteOf_toNat]
  · exact (load_storeWord_eq_or hst w x v s).resolve_right (Ne.symm hx)

@[simp] theorem loadWord_respondWrite (err : Bool) (s : State) (st : Store) (w : Nat) :
    loadWord (respondWrite err s) st w = loadWord s st w := by
  simp only [loadWord, load_respondWrite]

@[simp] theorem dbufSize_respondWrite (err : Bool) (s : State) : (respondWrite err s).dbufSize = s.dbufSize := rfl

@[simp] theorem busy_respondWrite (err : Bool) (s : State) : (respondWrite err s).busy = s.busy := rfl

@[simp] theorem dbufSize_storeWord (st : Store) (w : Nat) (v : Word) (s : State) :
    (storeWord st w v s).dbufSize = s.dbufSize := by
  simp only [storeWord, dbufSize_storeByte]

@[simp] theorem busy_storeWord (st : Store) (w : Nat) (v : Word) (s : State) :
    (storeWord st w v s).busy = s.busy := by
  simp only [State.busy, storeWord, storeByte_phase]

/-- A window word is read back from the state its own write leaves (20_memory.md R75). -/
theorem readsAs_after_window_write {s : State} (hb : s.busy = false) {st : Store} (hst : st ≠ .perm) {w : Nat}
    {off : Offset} (hl : LocAt s.dbufSize off.toNat (windowLoc st w)) (v : Word) :
    ∃ t, step (s.presenting (.write off v)) = .next t ∧ ReadsAs t off v := by
  refine ⟨_, step_presenting_window hb hst hl v, readsAs_idle (by simpa using hb) (by simpa using hl) ?_⟩
  rw [readLoc_windowLoc (by simpa using hb), loadWord_respondWrite, loadWord_storeWord hst]

/-! ## The words of STATUS and CTRL -/

/-- Two fields side by side, as a number. -/
theorem toNat_append_eq {m n : Nat} (x : BitVec m) (y : BitVec n) :
    (x ++ y).toNat = 2 ^ n * x.toNat + y.toNat := by
  rw [BitVec.toNat_append, ← Nat.shiftLeft_add_eq_or_of_lt y.isLt, Nat.shiftLeft_eq, Nat.mul_comm]

theorem busy_toNat (s : State) : s.busy.toNat = if s.phase = .idle then 0 else 1 := by
  cases hp : s.phase <;> simp [State.busy, hp]

/-- The STATUS word by its bit positions (10_state.md R24). -/
theorem statusWord_eq (s : State) : statusWord s =
    BitVec.ofNat 32 (256 * s.err.toNat + 4 * s.ovr.toNat + 2 * s.done.toNat + (if s.phase = .idle then 0 else 1)) := by
  rw [statusWord, ← BitVec.ofNat_toNat, ← busy_toNat]
  simp only [toNat_append_eq, BitVec.toNat_ofBool, BitVec.toNat_ofNat]
  congr 1
  omega

theorem ctrlWord_eq (s : State) : ctrlWord s = BitVec.ofNat 32 s.ie.toNat := by
  rw [ctrlWord, ← BitVec.ofNat_toNat, BitVec.toNat_ofBool]

/-! ## The statements -/

/-- While BUSY = 1 an access has one of five effects, and none of them reaches further (70_reset_and_hazards.md
R200). -/
theorem frame_of_access_while_busy {a : Access} {s t : State} (h : Effect (.access a) s t) (hb : s.busy = true) :
    t = { s with done := t.done, ovr := t.ovr, ie := t.ie, resp := t.resp, draws := t.draws } := by
  have hrun := busy_eq_true_iff.1 hb
  cases h with
  | read | ignored | status | ctrl | gated => rfl
  | register hp | keyWord hp | dataWord hp | rejected hp | cipher hp | schedule hp | generate hp | modexp hp =>
    exact absurd hp hrun

/-- Settles O34: every access answers a next state, which is one of the effects that remain while BUSY = 1. -/
theorem hostCannotDisturbARunningCommand : Obligations.HostCannotDisturbARunningCommand := by
  intro s a hb
  obtain ⟨t, ht⟩ := busAccess_next a s
  exact ⟨t, ht, frame_of_access_while_busy (effect_runEvent (ev := .access a) ht) hb⟩

/-- Settles O43: `storeWord` writes the window's cells only, four bytes of them. -/
theorem windowWritesStoreFourBytes : Obligations.WindowWritesStoreFourBytes := by
  intro s v w hb
  refine ⟨fun hw => ⟨_, step_presenting_window hb (by decide) (locAt_keyWindow s hw) v, ?_,
      load_after_window_write (by decide) w v s⟩,
    fun hw => ⟨_, step_presenting_window hb (by decide) (locAt_dataWindow hw) v, ?_,
      load_after_window_write (by decide) w v s⟩⟩
  · have hframe := storeWord_key_eq w v s
    generalize storeWord .key w v s = t at hframe ⊢
    exact congrArg (respondWrite false) hframe
  · have hframe := storeWord_data_eq w v s
    generalize storeWord .data w v s = t at hframe ⊢
    exact congrArg (respondWrite false) hframe

/-- Settles O44: both windows are read while BUSY = 0, after their own write. -/
theorem windowWordsReadBackAsWritten : Obligations.WindowWordsReadBackAsWritten := by
  rintro s v w _ hb (⟨hw, rfl⟩ | ⟨hw, rfl⟩)
  · exact readsAs_after_window_write hb (by decide) (locAt_keyWindow s hw) v
  · exact readsAs_after_window_write hb (by decide) (locAt_dataWindow hw) v

/-- Settles O37: none of these locations is masked by BUSY. -/
theorem exactReadsReturnTheRegisters : Obligations.ExactReadsReturnTheRegisters := by
  intro s
  refine ⟨readsAs_exact (l := .cmd) rfl rfl rfl, readsAs_exact (l := .status) rfl rfl ?_,
    readsAs_exact (l := .ctrl) rfl rfl ?_, readsAs_exact (l := .keyLen) rfl rfl ?_,
    readsAs_exact (l := .dataLen) rfl rfl ?_, readsAs_exact (l := .mxBase) rfl rfl rfl,
    readsAs_exact (l := .mxExp) rfl rfl rfl, readsAs_exact (l := .mxMod) rfl rfl rfl,
    readsAs_exact (l := .cfg) rfl rfl rfl, fun w hw => readsAs_exact (locAt_keyWindow s hw) rfl rfl⟩
  · rw [readLoc, statusWord_eq]
  · rw [readLoc, ctrlWord_eq]
  · rw [readLoc, BitVec.ofNat_toNat]
  · rw [readLoc, BitVec.ofNat_toNat]

/-- Settles O38: while BUSY = 0 no read is masked. -/
theorem resultReadsAreExactWhileIdle : Obligations.ResultReadsAreExactWhileIdle := by
  intro s hb
  refine ⟨readsAs_idle hb (l := .mxResult) rfl ?_, fun w hw => ?_, fun w hw => ?_⟩
  · rw [readLoc, maskedRead_idle hb]
  · exact readsAs_idle hb (locAt_permWindow s hw) (readLoc_windowLoc hb .perm w)
  · exact readsAs_idle hb (locAt_dataWindow hw) (readLoc_windowLoc hb .data w)

/-- Settles O40: a read is `busRead`, which records the response and counts the draw. -/
theorem readsHaveNoSideEffect : Obligations.ReadsHaveNoSideEffect :=
  fun s off => ⟨busRead off s, step_presenting s (.read off), rfl⟩

/-- Settles O46: the three read-only locations take no write, and STATUS has only two bits to clear. -/
theorem readOnlyWritesAreIgnored : Obligations.ReadOnlyWritesAreIgnored := by
  intro s a v ha
  refine ⟨?_, _, step_presenting_write s 0x00004#17 v (l := .status) rfl (by decide), rfl⟩
  obtain rfl | rfl | ⟨w, hw, rfl⟩ := ha
  · exact step_presenting_ignored (l := .mxResult) rfl (by decide) rfl
  · exact step_presenting_ignored (l := .cfg) rfl (by decide) rfl
  · exact step_presenting_ignored (locAt_permWindow s hw) (windowLoc_ne_cmd .perm w) rfl

/-- Settles O47: alignment is looked at first, and a misaligned offset reaches no register. -/
theorem misalignedAccessesAnswerErr : Obligations.MisalignedAccessesAnswerErr := by
  intro s off v hoff
  have hl : LocAt s.dbufSize off.toNat .misaligned := hoff
  exact ⟨step_presenting_read hl (Bool.and_false _), step_presenting_ignored hl (by decide) rfl⟩

/-- The three ranges of 10_state.md R22 are what the map leaves over. -/
theorem locAt_unmapped {size a : Nat} (ha : a % 4 = 0) (h : UnmappedOffset size a) : LocAt size a .unmapped := by
  unfold UnmappedOffset at h
  exact ⟨ha, by omega, by omega, by omega⟩

/-- Settles O48: an offset of the three ranges reaches no register. -/
theorem unmappedAccessesAnswerErr : Obligations.UnmappedAccessesAnswerErr := by
  intro s off v ha hoff
  have hl := locAt_unmapped ha hoff
  exact ⟨step_presenting_read hl (Bool.and_false _), step_presenting_ignored hl (by decide) rfl⟩

end Sys2Proof.Machine

/-! PROOFS. Command words: what the decoder answers by the two fields of a word, and what a BAD word does at CMD
(30_encoding.md R90 to R94; 60_exceptions.md R160 to R162). -/

namespace Sys2Proof.Machine

/-! ## The decoder -/

theorem decode_of_reserved_nonzero {v : Word} (hr : rsvField v ≠ 0#24) : decode v = .bad .reservedNonzero := by
  rw [decode, if_pos (bne_iff_ne.2 hr)]

theorem decode_of_undefined_op {v : Word} (hr : rsvField v = 0#24) (ho : opDefined v = false) :
    decode v = .bad (.undefinedOp (opField v)) := by
  simp only [opDefined, Bool.or_eq_false_iff] at ho
  obtain ⟨⟨⟨h1, h2⟩, h3⟩, h4⟩ := ho
  simp [decode, hr, h1, h2, h3, h4]

@[simp] theorem decode_encode (i : Instr) : decode (encode i) = .command i := by cases i <;> rfl

/-- The decoder answers a command for its word, and for no other (30_encoding.md R92). -/
theorem decode_eq_command_iff {v : Word} {i : Instr} : decode v = .command i ↔ v = encode i :=
  ⟨eq_encode_of_decode, fun h => h ▸ decode_encode i⟩

/-! ## Legal words -/

/-- The defined operations are the commands' opcodes (30_encoding.md R92). -/
theorem exists_opcode_of_opDefined {v : Word} (h : opDefined v = true) : ∃ i, opField v = opcode i := by
  simp only [opDefined, Bool.or_eq_true, beq_iff_eq] at h
  obtain ((h | h) | h) | h := h
  · exact ⟨.rc4Cipher, h⟩
  · exact ⟨.rc4Schedule, h⟩
  · exact ⟨.rc4Generate, h⟩
  · exact ⟨.modexp, h⟩

@[simp] theorem wordWellFormed_encode (i : Instr) : wordWellFormed (encode i) = true := by cases i <;> rfl

/-- A word is legal exactly if it is a command's word (30_encoding.md R92, R94). -/
theorem wordWellFormed_iff {v : Word} : wordWellFormed v = true ↔ ∃ i, v = encode i := by
  constructor
  · intro h
    obtain ⟨hr, ho⟩ := Bool.and_eq_true_iff.1 h
    obtain ⟨i, hi⟩ := exists_opcode_of_opDefined ho
    exact ⟨i, eq_encode_of_fields (beq_iff_eq.1 hr) hi⟩
  · rintro ⟨i, rfl⟩
    exact wordWellFormed_encode i

theorem wordWellFormed_iff_decodes {v : Word} : wordWellFormed v = true ↔ ∃ i, decode v = .command i := by
  simp only [wordWellFormed_iff, decode_eq_command_iff]

/-- OP, as the host numbers it, is none of the defined operations. -/
theorem opDefined_eq_false {v : Word} (h1 : v.toNat % 256 ≠ 0x01) (h2 : v.toNat % 256 ≠ 0x02)
    (h3 : v.toNat % 256 ≠ 0x03) (h4 : v.toNat % 256 ≠ 0x10) : opDefined v = false := by
  simp [opDefined, opField_eq_iff, h1, h2, h3, h4]

/-- OP is the word's number on 8 bits (30_encoding.md R90). -/
theorem opField_eq_ofNat (v : Word) : opField v = BitVec.ofNat 8 v.toNat := by
  rw [opField_eq_iff, BitVec.toNat_ofNat]

/-- A row of the opcode table decodes to the command whose word it holds. -/
theorem decodeTableWord_encode (i : Instr) : decodeTableWord 32 (encode i).toNat = some i := by
  rw [decodeTableWord, if_pos ⟨(encode i).isLt, (encode i).isLt⟩, BitVec.ofNat_toNat, BitVec.setWidth_eq,
    decode_encode]

/-- An illegal word is no row of the opcode table. -/
theorem decodeTableWord_eq_none {w : Nat} (h : wordWellFormed (BitVec.ofNat 32 w) = false) :
    decodeTableWord 32 w = none := by
  unfold decodeTableWord
  split_ifs
  · split
    · next i hi => exact absurd (wordWellFormed_iff_decodes.2 ⟨i, hi⟩) (by simp [h])
    · rfl
  · rfl

/-! ## A BAD word at CMD -/

/-- A rejection while BUSY = 0 changes the completion record only (60_exceptions.md R162). -/
theorem reject_of_idle {code : Code} {s : State} (hp : s.phase = .idle) :
    reject code s = { s with err := codeBits code, done := true } := by
  rw [reject, complete, ← hp]

/-- A write presented at CMD (20_memory.md R69). -/
theorem step_presenting_cmd (s : State) (v : Word) :
    step (s.presenting (.write cmdOff v)) = answerWrite false (writeCmd v s) := by
  have hloc : locate s.dbufSize cmdOff = .cmd := locate_eq (l := .cmd) rfl
  rw [step_presenting, busAccess, busWrite_cmd hloc]

/-- A BAD word written to CMD is a gated rejection with BAD_CMD (30_encoding.md R93; 60_exceptions.md R160). -/
theorem step_presenting_badWord {s : State} {v : Word} {why : BadCommand} (h : decode v = .bad why) :
    step (s.presenting (.write cmdOff v)) = .next (respondWrite false (gated (reject .badCmd) s)) := by
  rw [step_presenting_cmd, writeCmd, h, answerWrite]

/-! ## The statements -/

/-- Settles O1: the four words are those the encoder gives the commands. -/
theorem decodeAcceptsExactlyTheTableWords : Obligations.DecodeAcceptsExactlyTheTableWords := fun v =>
  have hdecode (i : Instr) : decode v = .command i ↔ v = encode i := decode_eq_command_iff
  ⟨hdecode .rc4Cipher, hdecode .rc4Schedule, hdecode .rc4Generate, hdecode .modexp⟩

/-- Settles O3: the decoder looks at RSV first, then at OP, and what it leaves are the commands' words. -/
theorem illegalWordsAreBadByName : Obligations.IllegalWordsAreBadByName := by
  intro v
  refine ⟨fun hr => ?_, fun hr h1 h2 h3 h4 => ?_, wordWellFormed_iff_decodes⟩
  · exact decode_of_reserved_nonzero (mt (rsvField_eq_zero_iff v).1 hr)
  · rw [← opField_eq_ofNat]
    exact decode_of_undefined_op ((rsvField_eq_zero_iff v).2 hr) (opDefined_eq_false h1 h2 h3 h4)

/-- Settles O2: every command is well formed, so the premise is not used. -/
theorem decodeOfEncodeIsTheCommand : Obligations.DecodeOfEncodeIsTheCommand := fun i _ => decode_encode i

/-- Settles O4: the four words are the encoder's, and each of the nine others is illegal. -/
theorem tableWordsDecodeAndIllegalWordsDoNot : Obligations.TableWordsDecodeAndIllegalWordsDoNot := by
  refine ⟨decodeTableWord_encode .rc4Cipher, decodeTableWord_encode .rc4Schedule,
    decodeTableWord_encode .rc4Generate, decodeTableWord_encode .modexp, List.map_eq_replicate_iff.2 fun w hw => ?_⟩
  apply decodeTableWord_eq_none
  revert w
  decide

/-- Settles O6: the rejection is gated, and in IDLE it leaves the phase as it is. -/
theorem badCommandWordIsRejected : Obligations.BadCommandWordIsRejected := by
  intro s v why hbad
  rw [step_presenting_badWord hbad]
  refine ⟨fun hp => ?_, fun hp => ?_⟩
  · rw [gated_idle (busy_eq_false_iff.2 hp), reject_of_idle hp]
    rfl
  · rw [gated_busy (busy_eq_true_iff.2 hp)]
    rfl

end Sys2Proof.Machine

/-! PROOFS. The issue step of the three RC4 commands (40_rc4.md R110 to R112, R114, R117). -/

namespace Sys2Proof.Machine

/-- A command without a code to reject it starts while BUSY = 0 (60_exceptions.md R160). -/
theorem issue_none_of_idle {s : State} (hp : s.phase = .idle) (start : State → State) :
    issue none start s = start s :=
  gated_idle (busy_eq_false_iff.2 hp)

theorem exec_rc4Cipher_of_accepted {s : State} (hp : s.phase = .idle)
    (hdata : 1 ≤ s.dataLen.toNat ∧ s.dataLen.toNat ≤ s.dbufSize) (hkey : s.keyLen ≠ 0#9) :
    exec .rc4Cipher s = .next (startKsa opCipher s) := by
  have hcode := cipherCode_eq_none_iff.2 ⟨dataLenCode_eq_none_iff.2 hdata, keyLenCode_eq_none_iff.2 hkey⟩
  rw [exec, execRc4Cipher, hcode, issue_none_of_idle hp]

theorem exec_rc4Schedule_of_accepted {s : State} (hp : s.phase = .idle) (hkey : s.keyLen ≠ 0#9) :
    exec .rc4Schedule s = .next (startKsa opSchedule s) := by
  rw [exec, execRc4Schedule, keyLenCode_eq_none_iff.2 hkey, issue_none_of_idle hp]

theorem exec_rc4Generate_of_accepted {s : State} (hp : s.phase = .idle)
    (hdata : 1 ≤ s.dataLen.toNat ∧ s.dataLen.toNat ≤ s.dbufSize) :
    exec .rc4Generate s = .next (startPrga opGenerate s) := by
  rw [exec, execRc4Generate, dataLenCode_eq_none_iff.2 hdata, issue_none_of_idle hp]

/-- Settles O8: no code rejects the command, and the store KSA_INIT leaves lists no cell. -/
theorem rc4CipherStarts : Obligations.Rc4CipherStarts := by
  intro s hp hpos hle hkey
  have hdata := And.intro (BitVec.toNat_pos_of_ne_zero hpos) hle
  exact ⟨startKsa opCipher s, exec_rc4Cipher_of_accepted hp hdata hkey, rfl, permAt_of_nil rfl, rfl⟩

/-- Settles O9: the key check alone can reject the command. -/
theorem rc4ScheduleStarts : Obligations.Rc4ScheduleStarts := by
  intro s hp hkey
  exact ⟨startKsa opSchedule s, exec_rc4Schedule_of_accepted hp hkey, rfl, permAt_of_nil rfl, rfl⟩

/-- Settles O10: the data checks alone can reject the command. -/
theorem rc4GenerateStarts : Obligations.Rc4GenerateStarts := by
  intro s hp hpos hle
  exact exec_rc4Generate_of_accepted hp ⟨BitVec.toNat_pos_of_ne_zero hpos, hle⟩

end Sys2Proof.Machine

/-! PROOFS. One KSA step and one PRGA step, with their ends (40_rc4.md R113, R115, R117, R118). -/

namespace Sys2Proof.Machine

/-- Indices of S are numbers modulo 256 (00_scope.md R11). -/
theorem ofNat_mod_256 (n : Nat) : BitVec.ofNat 8 (n % 256) = BitVec.ofNat 8 n := by
  apply BitVec.eq_of_toNat_eq
  simp

theorem engineTurn_ksaBody {s : State} (hp : s.phase = .ksa) (hc : s.c.toNat < 256) (hk : s.kidx.toNat < 256) :
    engineTurn s = .next (ksaBody s) := by
  rw [engineTurn_ksa hp, ksaStep, if_pos ⟨hc, hk⟩]

theorem engineTurn_prgaBody {s : State} (hp : s.phase = .prga) (hk : s.k.toNat < s.dataLen.toNat)
    (hd : s.k.toNat < s.dbufSize) : engineTurn s = .next (prgaBody s) := by
  rw [engineTurn_prga hp, prgaStep, if_pos ⟨hk, hd⟩]

/-! The ends. -/

theorem ksaEnd_of_lt {s : State} (h : s.c.toNat < 256) : ksaEnd s = s := by
  have hne : s.c ≠ 256#9 := fun hc => by simp [hc] at h
  rw [ksaEnd, if_neg hne]

theorem ksaEnd_cipher {s : State} (hc : s.c = 256#9) (hop : s.op = opCipher) :
    ksaEnd s = startPrga opCipher s := by
  rw [ksaEnd, if_pos hc, if_pos hop, ← hop]
  rfl

theorem ksaEnd_schedule {s : State} (hc : s.c = 256#9) (hop : s.op ≠ opCipher) : ksaEnd s = complete .ok s := by
  rw [ksaEnd, if_pos hc, if_neg hop]

theorem prgaEnd_of_lt {s : State} (h : s.k.toNat < s.dataLen.toNat) : prgaEnd s = s := by
  have hne : s.k ≠ s.dataLen := fun hk => by simp [hk] at h
  rw [prgaEnd, if_neg hne]

theorem prgaEnd_of_eq {s : State} (h : s.k = s.dataLen) : prgaEnd s = complete .ok s := by
  rw [prgaEnd, if_pos h]

/-! The registers of one step. -/

/-- e.c counts up to 256 and does not wrap (10_state.md R40). -/
theorem toNat_c_succ {c : BitVec 9} (h : c.toNat < 256) : (c + 1#9).toNat = c.toNat + 1 := by
  rw [BitVec.toNat_add, BitVec.toNat_ofNat]
  omega

theorem c_succ_of_last {c : BitVec 9} (h : c.toNat = 255) : c + 1#9 = 256#9 :=
  BitVec.eq_of_toNat_eq (by rw [toNat_c_succ (by omega), h]; rfl)

/-- e.k counts up to DATALEN and does not wrap (10_state.md R40). -/
theorem toNat_k_succ {k dataLen : BitVec 17} (h : k.toNat < dataLen.toNat) : (k + 1#17).toNat = k.toNat + 1 := by
  have := dataLen.isLt
  rw [BitVec.toNat_add, BitVec.toNat_ofNat]
  omega

theorem ksaJ_eq_ofNat (s : State) :
    ksaJ s = BitVec.ofNat 8
      ((s.j.toNat + (s.permAt (s.c.setWidth 8)).toNat + (s.load .key s.kidx.toNat).toNat) % 256) := by
  simp [ksaJ, ofNat_mod_256, BitVec.ofNat_add]

theorem prgaI_eq_ofNat (s : State) : prgaI s = BitVec.ofNat 8 ((s.i.toNat + 1) % 256) := by
  simp [prgaI, ofNat_mod_256, BitVec.ofNat_add]

theorem prgaJ_eq_ofNat (s : State) : prgaJ s = BitVec.ofNat 8 ((s.j.toNat + (s.permAt (prgaI s)).toNat) % 256) := by
  simp [prgaJ, ofNat_mod_256, BitVec.ofNat_add]

/-- The key-index counter wraps at KEYLEN (40_rc4.md R113). -/
theorem nextKidx_eq_ofNat {keyLen kidx : BitVec 9} (h : kidx.toNat ≤ 255) :
    nextKidx keyLen kidx = if kidx.toNat + 1 = keyLen.toNat then 0#9 else BitVec.ofNat 9 (kidx.toNat + 1) := by
  have hsucc : (kidx + 1#9).toNat = kidx.toNat + 1 := toNat_c_succ (by omega)
  have hwrap : kidx + 1#9 = keyLen ↔ kidx.toNat + 1 = keyLen.toNat := by
    rw [← BitVec.toNat_inj, hsucc]
  simp [nextKidx, hwrap, BitVec.ofNat_add]

/-! The bodies, with the cells they leave as names. -/

theorem ksaBody_of_lt {s : State} (h : s.c.toNat < 255) :
    ksaBody s = { s with
      permStore := (ksaBody s).permStore, j := ksaJ s, kidx := nextKidx s.keyLen s.kidx, c := s.c + 1#9 } := by
  have hc : (s.c + 1#9).toNat < 256 := by rw [toNat_c_succ] <;> omega
  rw [ksaBody_permStore, ksaBody, ksaEnd_of_lt hc, ksaAdvance_ksaSwap_eq]

theorem ksaBody_cipher {s : State} (h : s.c.toNat = 255) (hop : s.op = opCipher) :
    ksaBody s = { s with
      permStore := (ksaBody s).permStore, kidx := nextKidx s.keyLen s.kidx, c := 256#9,
      i := 0#8, j := 0#8, k := 0#17, phase := .prga } := by
  have hc := c_succ_of_last h
  rw [ksaBody_permStore, ksaBody, ksaEnd_cipher (s := ksaAdvance (ksaSwap s)) hc hop,
    ksaAdvance_ksaSwap_eq, hc, startPrga, prgaInit, ← hop]

theorem ksaBody_schedule {s : State} (h : s.c.toNat = 255) (hop : s.op ≠ opCipher) :
    ksaBody s = { s with
      permStore := (ksaBody s).permStore, j := ksaJ s, kidx := nextKidx s.keyLen s.kidx, c := 256#9,
      phase := .idle, err := 0x0#4, done := true } := by
  have hc := c_succ_of_last h
  rw [ksaBody_permStore, ksaBody, ksaEnd_schedule (s := ksaAdvance (ksaSwap s)) hc hop,
    ksaAdvance_ksaSwap_eq, hc, complete, codeBits]

theorem prgaBody_of_lt {s : State} (h : s.k.toNat + 1 < s.dataLen.toNat) :
    prgaBody s = { s with
      permStore := (prgaBody s).permStore, dataStore := (prgaBody s).dataStore, i := prgaI s, j := prgaJ s,
      k := s.k + 1#17 } := by
  have hk : (s.k + 1#17).toNat < s.dataLen.toNat := by rw [toNat_k_succ (dataLen := s.dataLen)] <;> omega
  rw [prgaBody, prgaEnd_of_lt hk, prgaCombine_prgaSwap_eq]

theorem prgaBody_of_last {s : State} (h : s.k.toNat + 1 = s.dataLen.toNat) :
    prgaBody s = { s with
      permStore := (prgaBody s).permStore, dataStore := (prgaBody s).dataStore, i := prgaI s, j := prgaJ s,
      k := s.dataLen, phase := .idle, err := 0x0#4, done := true } := by
  have hk : s.k + 1#17 = s.dataLen := BitVec.eq_of_toNat_eq (by rw [toNat_k_succ (dataLen := s.dataLen)] <;> omega)
  rw [prgaBody, prgaEnd_of_eq hk, prgaCombine_prgaSwap_eq, hk, complete, codeBits]

/-- Settles O14: the body of the step, its registers as numbers, and its three ends. -/
theorem ksaStepFollowsItsRule : Obligations.KsaStepFollowsItsRule := by
  intro s hp
  refine ⟨fun h => ?_, fun hc hk hwf => ⟨ksaBody s, engineTurn_ksaBody hp (by omega) (by omega), ?_⟩⟩
  · obtain ⟨hc, -, hkidx, -⟩ := h.ksaPhase hp
    have := Nat.mod_le s.c.toNat s.keyLen.toNat
    exact ⟨by omega, by omega, h.permCells⟩
  · have hcount : BitVec.ofNat 9 (s.c.toNat + 1) = s.c + 1#9 := by simp [BitVec.ofNat_add]
    simp only [BitVec.ofNat_toNat, ← ksaJ_eq_ofNat, ← nextKidx_eq_ofNat hk, hcount]
    exact ⟨permAt_ksaBody hwf, ksaBody_of_lt, ksaBody_cipher, ksaBody_schedule⟩

/-- Settles O15: the body of the step, its registers as numbers, and its two ends. -/
theorem prgaStepFollowsItsRule : Obligations.PrgaStepFollowsItsRule := by
  intro s hp
  refine ⟨fun h => ?_, fun hk hle hwf => ⟨prgaBody s, engineTurn_prgaBody hp hk (by omega), ?_⟩⟩
  · obtain ⟨-, hk, hle⟩ := h.prgaPhase hp
    exact ⟨hk, hle, h.permCells⟩
  · intro i j S ks
    have hi : i = prgaI s := (prgaI_eq_ofNat s).symm
    have hj : j = prgaJ s := by simp only [j, hi, ← prgaJ_eq_ofNat]
    have hS : S = swapAt s.permAt (prgaI s) (prgaJ s) := by simp only [S, hi, hj]; rfl
    have hks : ks = prgaKs (prgaSwap s) := by
      simp only [ks, hS, hi, hj, ofNat_mod_256, BitVec.ofNat_add, BitVec.ofNat_toNat, BitVec.setWidth_eq]
      exact (prgaKs_prgaSwap hwf).symm
    have hcount : BitVec.ofNat 17 (s.k.toNat + 1) = s.k + 1#17 := by simp [BitVec.ofNat_add]
    rw [hi, hj, hS, hks, hcount]
    refine ⟨permAt_prgaBody hwf, ?_, fun x hx => ?_, prgaBody_of_lt, prgaBody_of_last⟩
    · rw [load_data_prgaBody, if_pos rfl]
    · rw [load_data_prgaBody, if_neg hx]

end Sys2Proof.Machine

/-! PROOFS. Runs by stages, and the schedule and the generation as runs: after each number of engine steps the block
holds what the pure functions hold after as many iterations (40_rc4.md R113 to R119, R124). -/

namespace Sys2Proof.Machine

/-! ## Runs by stages -/

/-- BUSY all the while, for one step more. -/
theorem BusyFor.snoc {n : Nat} {s t : State} (h : BusyFor n s) (hr : run n s = .next t) (ht : t.busy = true) :
    BusyFor (n + 1) s := by
  intro i hi
  obtain hlt | rfl : i < n ∨ i = n := by omega
  · exact h i hlt
  · exact ⟨t, hr, ht⟩

/-- BUSY all the while, over two runs. -/
theorem BusyFor.append {m n : Nat} {s t : State} (h : BusyFor m s) (hr : run m s = .next t) (h' : BusyFor n t) :
    BusyFor (m + n) s := by
  intro i hi
  by_cases him : i < m
  · exact h i him
  · obtain ⟨k, rfl⟩ := Nat.exists_eq_add_of_le (not_lt.1 him)
    rw [run_add hr]
    exact h' k (by omega)

/-- A loop whose every step ends with a test `finish`, which does nothing before the last step: the run of `n` steps
ends in stage `n`, finished. -/
theorem run_of_stages {Stage : Nat → State → Prop} {finish : State → State} {n : Nat} {s : State} (h0 : Stage 0 s)
    (hfinish : finish s = s)
    (hnext : ∀ i u, i < n → Stage i u →
      finish u = u ∧ u.busy = true ∧ ∃ v, step u = .next (finish v) ∧ Stage (i + 1) v) :
    ∃ v, run n s = .next (finish v) ∧ BusyFor n s ∧ Stage n v := by
  induction n with
  | zero => exact ⟨s, by rw [hfinish]; rfl, nofun, h0⟩
  | succ n ih =>
    obtain ⟨u, hrun, hbusy, hu⟩ := ih fun i u hi => hnext i u (by omega)
    obtain ⟨hend, hub, v, hstep, hv⟩ := hnext n u (Nat.lt_succ_self n) hu
    rw [hend] at hrun
    exact ⟨v, run_snoc hrun hstep, hbusy.snoc hrun hub, hv⟩

/-! ## The schedule -/

/-- Stage `n` of the schedule started in `s`: the state after `n` KSA steps, before the end of the last one. -/
structure ScheduleAt (s : State) (n : Nat) (u : State) : Prop where
  frame : u = { s with permStore := u.permStore, j := u.j, kidx := u.kidx, c := u.c }
  permCells : Memory.wf .perm 256 u.permStore = true
  position : u.c.toNat = n
  kidx : u.kidx.toNat = n % s.keyLen.toNat
  loop : ksaLoop (s.load .key) s.keyLen.toNat n = (u.permAt, u.j)

theorem scheduleAt_start (opc : Byte) (s : State) : ScheduleAt (startKsa opc s) 0 (startKsa opc s) where
  frame := rfl
  permCells := rfl
  position := rfl
  kidx := (Nat.zero_mod _).symm
  loop := congrArg (·, 0#8) (funext fun x => (permAt_of_nil (s := startKsa opc s) rfl x).symm)

/-- A KSA step, its end apart, is one iteration of the loop (40_rc4.md R115, R119). -/
theorem ScheduleAt.succ {s u : State} {n : Nat} (h : ScheduleAt s n u) (hlen : s.keyLen ≠ 0#9) (hn : n < 256) :
    ScheduleAt s (n + 1) (ksaAdvance (ksaSwap u)) := by
  have hkeyLen : u.keyLen = s.keyLen := (congrArg State.keyLen h.frame :)
  have hkey : u.load .key u.kidx.toNat = s.load .key (n % s.keyLen.toNat) := by
    rw [h.kidx]
    exact (congrArg (State.load · .key _) h.frame :)
  have hcx : u.c.setWidth 8 = BitVec.ofNat 8 n := by rw [← h.position, BitVec.ofNat_toNat]
  have hj : ksaJ u = u.j + u.permAt (BitVec.ofNat 8 n) + s.load .key (n % s.keyLen.toNat) := by
    rw [ksaJ, hcx, hkey]
  have hperm : (ksaAdvance (ksaSwap u)).permAt = swapAt u.permAt (BitVec.ofNat 8 n) (ksaJ u) := by
    funext x
    rw [← hcx, ← permAt_ksaBody h.permCells, ksaBody, permAt_ksaEnd]
  exact {
    frame := by
      rw [ksaAdvance_ksaSwap_eq]
      generalize (ksaSwap u).permStore = P
      generalize ksaJ u = j
      rw [h.frame]
    permCells := by
      rw [ksaAdvance_permStore, ← ksaBody_permStore]
      exact wf_perm_ksaBody h.permCells
    position := by rw [ksaAdvance_c, ksaSwap_c, toNat_c_succ (by rw [h.position]; exact hn), h.position]
    kidx := by
      rw [ksaAdvance_kidx, ksaSwap_kidx, ksaSwap_keyLen, hkeyLen]
      exact nextKidx_toNat hlen hn h.kidx
    loop := by rw [ksaLoop_succ, h.loop, hperm, ksaAdvance_j, ksaSwap_j, hj] }

/-- The schedule runs 256 engine steps, BUSY before each (40_rc4.md R115, R124). -/
theorem run_schedule {opc : Byte} {s : State} (hin : s.inputs = []) (hlen : s.keyLen ≠ 0#9) :
    ∃ v, run 256 (startKsa opc s) = .next (ksaEnd v) ∧ BusyFor 256 (startKsa opc s) ∧
      ScheduleAt (startKsa opc s) 256 v := by
  refine run_of_stages (scheduleAt_start opc s) (ksaEnd_of_lt (Nat.zero_lt_succ 255)) fun n u hn h => ?_
  have hphase : u.phase = .ksa := congrArg State.phase h.frame
  have hinputs : u.inputs = [] := (congrArg State.inputs h.frame).trans hin
  have hc : u.c.toNat < 256 := by rw [h.position]; exact hn
  have hkidx : u.kidx.toNat < 256 := by rw [h.kidx]; exact (Nat.mod_le _ _).trans_lt hn
  exact ⟨ksaEnd_of_lt hc, by rw [State.busy, hphase]; rfl, ksaAdvance (ksaSwap u),
    by rw [step_alone hinputs, engineTurn_ksaBody hphase hc hkidx, ksaBody], h.succ hlen hn⟩

/-! ## The generation -/

theorem keystream_eq_of_loop {S P : Byte → Byte} {i j : Byte} {k : Nat} (h : prgaLoop S (k + 1) = (P, i, j)) :
    keystream S k = P (P i + P j) := by
  rw [keystream, h]

/-- Stage `n` of the generation that starts in `s`: the state after `n` PRGA steps, before the end of the last one. -/
structure GenerateAt (s : State) (n : Nat) (u : State) : Prop where
  frame : u = { s with permStore := u.permStore, dataStore := u.dataStore, i := u.i, j := u.j, k := u.k }
  permCells : Memory.wf .perm 256 u.permStore = true
  position : u.k.toNat = n
  loop : prgaLoop s.permAt n = (u.permAt, u.i, u.j)
  data (x : Nat) : u.load .data x = if x < n then s.load .data x ^^^ keystream s.permAt x else s.load .data x

theorem generateAt_start (opc : Byte) {s : State} (hwf : Memory.wf .perm 256 s.permStore = true) :
    GenerateAt (startPrga opc s) 0 (startPrga opc s) where
  frame := rfl
  permCells := hwf
  position := rfl
  loop := rfl
  data _ := rfl

/-- A PRGA step, its end apart, is one iteration of the loop and one byte of DATA (40_rc4.md R118, R119). -/
theorem GenerateAt.succ {s u : State} {n : Nat} (h : GenerateAt s n u) (hn : n < s.dataLen.toNat) :
    GenerateAt s (n + 1) (prgaCombine (prgaSwap u)) := by
  have hperm : (prgaCombine (prgaSwap u)).permAt = swapAt u.permAt (prgaI u) (prgaJ u) := by
    funext x
    rw [permAt_prgaCombine, permAt_prgaSwap h.permCells]
  have hloop : prgaLoop s.permAt (n + 1) = ((prgaCombine (prgaSwap u)).permAt, prgaI u, prgaJ u) := by
    rw [prgaLoop_succ, h.loop, hperm, prgaI, prgaJ, prgaI]
  have hks : prgaKs (prgaSwap u) = keystream s.permAt n := by
    rw [keystream_eq_of_loop hloop]
    simp only [permAt_prgaCombine]
    rfl
  exact {
    frame := by
      rw [prgaCombine_prgaSwap_eq]
      generalize (prgaCombine (prgaSwap u)).dataStore = D
      generalize (prgaSwap u).permStore = P
      generalize prgaI u = i
      generalize prgaJ u = j
      rw [h.frame]
    permCells := by
      rw [prgaCombine_permStore, ← prgaBody_permStore]
      exact wf_perm_prgaBody h.permCells
    position := by
      rw [prgaCombine_k, prgaSwap_k, toNat_k_succ (dataLen := s.dataLen) (by rw [h.position]; exact hn), h.position]
    loop := hloop
    data := fun x => by
      rw [← load_prgaEnd, ← prgaBody, load_data_prgaBody, h.position, hks, h.data, h.data]
      obtain hlt | rfl | hgt : x < n ∨ x = n ∨ n < x := by omega
      · rw [if_neg (by omega), if_pos hlt, if_pos (by omega)]
      · rw [if_pos rfl, if_neg (by omega), if_pos (by omega)]
      · rw [if_neg (by omega), if_neg (by omega), if_neg (by omega)] }

/-- The generation runs DATALEN engine steps, BUSY before each (40_rc4.md R118, R124). -/
theorem run_generate {opc : Byte} {s : State} (hin : s.inputs = [])
    (hlen : 1 ≤ s.dataLen.toNat ∧ s.dataLen.toNat ≤ s.dbufSize) (hwf : Memory.wf .perm 256 s.permStore = true) :
    ∃ v, run s.dataLen.toNat (startPrga opc s) = .next (prgaEnd v) ∧ BusyFor s.dataLen.toNat (startPrga opc s) ∧
      GenerateAt (startPrga opc s) s.dataLen.toNat v := by
  obtain ⟨hpos, hle⟩ := hlen
  refine run_of_stages (generateAt_start opc hwf) (prgaEnd_of_lt hpos) fun n u hn h => ?_
  have hphase : u.phase = .prga := congrArg State.phase h.frame
  have hinputs : u.inputs = [] := (congrArg State.inputs h.frame).trans hin
  have hdataLen : u.dataLen = s.dataLen := (congrArg State.dataLen h.frame :)
  have hsize : u.dbufSize = s.dbufSize := (congrArg State.dbufSize h.frame :)
  have hk : u.k.toNat < u.dataLen.toNat := by rw [h.position, hdataLen]; exact hn
  have hd : u.k.toNat < u.dbufSize := by rw [h.position, hsize]; omega
  exact ⟨prgaEnd_of_lt hk, by rw [State.busy, hphase]; rfl, prgaCombine (prgaSwap u),
    by rw [step_alone hinputs, engineTurn_prgaBody hphase hk hd, prgaBody], h.succ hn⟩

end Sys2Proof.Machine

/-! PROOFS. The end states of the three RC4 commands, and what follows from them (40_rc4.md R110 to R112, R119, R121 to
R124). -/

namespace Sys2Proof.Machine

/-! ## The last stages -/

/-- After the whole schedule S is KSA of the key that stood at its start (40_rc4.md R119). -/
theorem ScheduleAt.permAt_eq_ksa {opc : Byte} {s v : State} (h : ScheduleAt (startKsa opc s) 256 v) :
    v.permAt = ksa (s.load .key) s.keyLen.toNat :=
  (congrArg Prod.fst h.loop).symm

theorem ScheduleAt.c_eq {s v : State} (h : ScheduleAt s 256 v) : v.c = 256#9 :=
  BitVec.eq_of_toNat_eq h.position

/-- What the whole schedule changes, its end apart. -/
theorem ScheduleAt.last_frame {opc : Byte} {s v : State} (h : ScheduleAt (startKsa opc s) 256 v) :
    v = { s with permStore := v.permStore, phase := .ksa, op := opc, c := 256#9, kidx := v.kidx, j := v.j } := by
  have hframe := h.frame
  rw [h.c_eq] at hframe
  exact hframe

/-- The generation started with `opc` in `s` has completed in `t`: S, DATA, and everything else (40_rc4.md R118,
R119). -/
structure GenerateDone (opc : Byte) (s t : State) : Prop where
  perm (x : Byte) : t.permAt x = prgaPerm s.permAt s.dataLen.toNat x
  data (k : Nat) : t.load .data k =
    if k < s.dataLen.toNat then s.load .data k ^^^ keystream s.permAt k else s.load .data k
  frame : t = { s with
    permStore := t.permStore, dataStore := t.dataStore, phase := .idle, err := 0x0#4, done := true, op := opc,
    i := t.i, j := t.j, k := s.dataLen }

theorem GenerateAt.done {opc : Byte} {s v : State} (h : GenerateAt (startPrga opc s) s.dataLen.toNat v) :
    GenerateDone opc s (complete .ok v) where
  perm x := (congrFun (congrArg Prod.fst h.loop) x).symm
  data := h.data
  frame := by
    have hframe := h.frame
    rw [(BitVec.eq_of_toNat_eq h.position : v.k = s.dataLen)] at hframe
    rw [hframe]
    rfl

/-- The generation runs to its end from any state with lengths in range (40_rc4.md R116). -/
theorem run_generate_done {opc : Byte} {s : State} (hin : s.inputs = [])
    (hlen : 1 ≤ s.dataLen.toNat ∧ s.dataLen.toNat ≤ s.dbufSize) (hwf : Memory.wf .perm 256 s.permStore = true) :
    ∃ t, run s.dataLen.toNat (startPrga opc s) = .next t ∧ BusyFor s.dataLen.toNat (startPrga opc s) ∧
      GenerateDone opc s t := by
  obtain ⟨v, hrun, hbusy, hv⟩ := run_generate (opc := opc) hin hlen hwf
  have hk : v.k = v.dataLen := (BitVec.eq_of_toNat_eq hv.position).trans (congrArg State.dataLen hv.frame).symm
  rw [prgaEnd_of_eq hk] at hrun
  exact ⟨complete .ok v, hrun, hbusy, hv.done⟩

/-! ## The end states -/

/-- Settles O20: the generation that RC4_GENERATE starts, run to its end. -/
theorem generateReachesItsEndState : Obligations.GenerateReachesItsEndState := by
  intro s hp hin hpos hle hwf
  obtain ⟨t, hrun, hbusy, ht⟩ := run_generate_done (opc := opGenerate) hin ⟨hpos, hle⟩ hwf
  exact ⟨_, t, exec_rc4Generate_of_accepted hp ⟨hpos, hle⟩, hrun, hbusy, ht.perm, ht.data, ht.frame⟩

/-- Settles O19: the schedule that RC4_SCHEDULE starts, completed by its last step. -/
theorem scheduleReachesItsEndState : Obligations.ScheduleReachesItsEndState := by
  intro s hp hin hlen
  obtain ⟨v, hrun, hbusy, hv⟩ := run_schedule (opc := opSchedule) hin hlen
  have hop : v.op = opSchedule := congrArg State.op hv.frame
  rw [ksaEnd_schedule hv.c_eq (by rw [hop]; decide)] at hrun
  refine ⟨_, complete .ok v, exec_rc4Schedule_of_accepted hp hlen, hrun, hbusy, congrFun hv.permAt_eq_ksa, ?_⟩
  rw [hv.last_frame]
  rfl

/-- Settles O18: the schedule, whose last step starts the generation, and the generation on the S it leaves. -/
theorem cipherReachesItsEndState : Obligations.CipherReachesItsEndState := by
  rintro s ⟨hp, hin, hpos, hle, hlen⟩
  obtain ⟨v, hrunKsa, hbusyKsa, hv⟩ := run_schedule (opc := opCipher) hin hlen
  have hop : v.op = opCipher := congrArg State.op hv.frame
  have hinputs : v.inputs = [] := (congrArg State.inputs hv.frame).trans hin
  have hdataLen : v.dataLen = s.dataLen := (congrArg State.dataLen hv.frame :)
  have hsize : v.dbufSize = s.dbufSize := (congrArg State.dbufSize hv.frame :)
  have hdata (x : Nat) : v.load .data x = s.load .data x :=
    (congrArg (State.load · .data x) hv.frame :)
  rw [ksaEnd_cipher hv.c_eq hop] at hrunKsa
  obtain ⟨t, hrunPrga, hbusyPrga, ht⟩ := run_generate_done (opc := opCipher) hinputs
    (by rw [hdataLen, hsize]; exact ⟨hpos, hle⟩) hv.permCells
  rw [hdataLen] at hrunPrga hbusyPrga
  refine ⟨_, t, exec_rc4Cipher_of_accepted hp ⟨hpos, hle⟩ hlen, ?_, hbusyKsa.append hrunKsa hbusyPrga, ⟨?_, ?_⟩, ?_⟩
  · rw [run_add hrunKsa, hrunPrga]
  · rw [← hdataLen, ← hv.permAt_eq_ksa]
    exact ht.perm
  · intro k
    rw [ht.data, hdata, hdataLen, hv.permAt_eq_ksa]
  · rw [ht.frame, hv.last_frame]
    rfl

/-! ## What a result depends on (R122) -/

/-- KEYLEN above 256 schedules as 256 does (40_rc4.md R113). -/
theorem ksaLoop_min (key : Nat → Byte) (len : Nat) {n : Nat} (hn : n ≤ 256) :
    ksaLoop key len n = ksaLoop key (min len 256) n := by
  induction n with
  | zero => rfl
  | succ n ih =>
    have hmod : n % len = n % min len 256 := by
      obtain hle | hlt := le_or_gt len 256
      · rw [min_eq_left hle]
      · rw [min_eq_right hlt.le, Nat.mod_eq_of_lt (by omega), Nat.mod_eq_of_lt (by omega)]
    rw [ksaLoop_succ, ksaLoop_succ, ih (by omega), hmod]

/-- The schedule reads the key below its length only. -/
theorem ksaLoop_congr {key key' : Nat → Byte} {len : Nat} (hlen : 0 < len) (h : ∀ x, x < len → key x = key' x)
    (n : Nat) : ksaLoop key len n = ksaLoop key' len n := by
  induction n with
  | zero => rfl
  | succ n ih => rw [ksaLoop_succ, ksaLoop_succ, ih, h _ (Nat.mod_lt n hlen)]

/-- The scheduled S depends on min(KEYLEN, 256) and the key bytes below it (10_state.md R36). -/
theorem ksa_congr {s₁ s₂ : State} (hlen : s₁.keyLen ≠ 0#9) (hread : keyBytesRead s₁ = keyBytesRead s₂)
    (hkey : ∀ x, x < keyBytesRead s₁ → s₁.load .key x = s₂.load .key x) :
    ksa (s₁.load .key) s₁.keyLen.toNat = ksa (s₂.load .key) s₂.keyLen.toNat := by
  have hpos : 0 < keyBytesRead s₁ := lt_min (BitVec.toNat_pos_of_ne_zero hlen) (Nat.zero_lt_succ 255)
  have hloop : ksaLoop (s₁.load .key) s₁.keyLen.toNat 256 = ksaLoop (s₂.load .key) s₂.keyLen.toNat 256 := calc
    _ = ksaLoop (s₁.load .key) (keyBytesRead s₁) 256 := ksaLoop_min _ _ le_rfl
    _ = ksaLoop (s₂.load .key) (keyBytesRead s₁) 256 := ksaLoop_congr hpos hkey 256
    _ = ksaLoop (s₂.load .key) (keyBytesRead s₂) 256 := by rw [hread]
    _ = ksaLoop (s₂.load .key) s₂.keyLen.toNat 256 := (ksaLoop_min _ _ le_rfl).symm
  rw [ksa, ksa, hloop]

/-- Settles O23: the end state of RC4_SCHEDULE names the key alone. -/
theorem scheduleResultDependsOnlyOnItsInputs : Obligations.ScheduleResultDependsOnlyOnItsInputs := by
  intro s₁ s₂ hp₁ hin₁ hlen₁ hp₂ hin₂ hlen₂ hread hkey
  obtain ⟨u₁, t₁, hexec₁, hrun₁, -, hperm₁, -⟩ := scheduleReachesItsEndState s₁ hp₁ hin₁ hlen₁
  obtain ⟨u₂, t₂, hexec₂, hrun₂, -, hperm₂, -⟩ := scheduleReachesItsEndState s₂ hp₂ hin₂ hlen₂
  refine ⟨u₁, t₁, u₂, t₂, hexec₁, hrun₁, hexec₂, hrun₂, fun x => ?_⟩
  rw [hperm₁, hperm₂, ksa_congr hlen₁ hread hkey]

/-- Settles O22: the end state of RC4_CIPHER names the scheduled S, DATALEN and DATA alone. -/
theorem cipherResultDependsOnlyOnItsInputs : Obligations.CipherResultDependsOnlyOnItsInputs := by
  intro s₁ s₂ hready₁ hready₂ hdataLen hread hkey hdata
  obtain ⟨u₁, t₁, hexec₁, hrun₁, -, ⟨hperm₁, hdata₁⟩, -⟩ := cipherReachesItsEndState s₁ hready₁
  obtain ⟨u₂, t₂, hexec₂, hrun₂, -, ⟨hperm₂, hdata₂⟩, -⟩ := cipherReachesItsEndState s₂ hready₂
  obtain ⟨-, -, -, -, hlen₁⟩ := hready₁
  have hksa := ksa_congr hlen₁ hread hkey
  refine ⟨u₁, t₁, u₂, t₂, hexec₁, hrun₁, hexec₂, hrun₂, fun x => ?_, fun k hk => ?_⟩
  · rw [hperm₁, hperm₂, hksa, hdataLen]
  · rw [hdata₁, hdata₂, if_pos hk, if_pos (hdataLen ▸ hk), hksa, hdata k hk]

/-! ## Two commands in a row (R121, R123) -/

/-- Settles O24: both runs schedule the same S, and the same keystream twice cancels. -/
theorem cipherTwiceRestoresTheData : Obligations.CipherTwiceRestoresTheData := by
  intro s hready
  obtain ⟨u, t, hexec, hrun, -, ⟨-, hdata⟩, hframe⟩ := cipherReachesItsEndState s hready
  obtain ⟨-, hin, hpos, hle, hlen⟩ := hready
  have hready' : CipherReady t := by rw [hframe]; exact ⟨rfl, hin, hpos, hle, hlen⟩
  have hdataLen : t.dataLen = s.dataLen := (congrArg State.dataLen hframe :)
  have hkeyLen : t.keyLen = s.keyLen := (congrArg State.keyLen hframe :)
  have hkey : t.load .key = s.load .key := (congrArg (State.load · .key) hframe :)
  obtain ⟨v, w, hexec', hrun', -, ⟨-, hdata'⟩, -⟩ := cipherReachesItsEndState t hready'
  rw [hdataLen] at hrun'
  refine ⟨u, t, v, w, hexec, hrun, hexec', hrun', fun x => ?_⟩
  rw [hdata', hdata, hdataLen, hkeyLen, hkey]
  split_ifs
  · rw [BitVec.xor_assoc, BitVec.xor_self, BitVec.xor_zero]
  · rfl

/-- Every state of a run keeps S in canonical form and a bijection. -/
theorem permLegal_of_run {n : Nat} {s t : State} (hs : PermLegal s) (h : run n s = .next t) : PermLegal t := by
  induction n generalizing s with
  | zero => cases h; exact hs
  | succ n ih =>
    obtain ⟨u, hu, hr⟩ := run_succ_inv h
    obtain ⟨ev, rest, -, he⟩ := step_effect hu
    exact ih (permLegal_of_effect he (permLegal_congr hs rfl)) hr

/-- Settles O25: the S that RC4_SCHEDULE leaves is the one RC4_CIPHER generates from. -/
theorem scheduleThenGenerateEqualsCipher : Obligations.ScheduleThenGenerateEqualsCipher := by
  intro s hready
  obtain ⟨u, t, hexec, hrun, -, ⟨hperm, hdata⟩, -⟩ := cipherReachesItsEndState s hready
  obtain ⟨hp, hin, hpos, hle, hlen⟩ := hready
  obtain ⟨a, b, hexecA, hrunA, -, hpermB, hframeB⟩ := scheduleReachesItsEndState s hp hin hlen
  have ha : a = startKsa opSchedule s := by
    rw [exec_rc4Schedule_of_accepted hp hlen] at hexecA
    cases hexecA
    rfl
  have hlegal : PermLegal b := permLegal_of_run (permLegal_of_nil (by rw [ha]; rfl)) hrunA
  have hdataLen : b.dataLen = s.dataLen := (congrArg State.dataLen hframeB :)
  have hsize : b.dbufSize = s.dbufSize := (congrArg State.dbufSize hframeB :)
  have hdataB (x : Nat) : b.load .data x = s.load .data x :=
    (congrArg (State.load · .data x) hframeB :)
  obtain ⟨c, d, hexecC, hrunC, -, hpermD, hdataD, hframeD⟩ := generateReachesItsEndState b
    (congrArg State.phase hframeB) ((congrArg State.inputs hframeB).trans hin) (hdataLen ▸ hpos)
    (by rw [hdataLen, hsize]; exact hle) hlegal.1
  rw [hdataLen] at hrunC
  refine ⟨u, t, a, b, c, d, hexec, hrun, hexecA, hrunA, congrArg State.done hframeB, hexecC, hrunC,
    congrArg State.done hframeD, fun x => ?_, fun x => ?_⟩
  · rw [hperm, hpermD, hdataLen, funext hpermB]
  · rw [hdata, hdataD, hdataLen, hdataB, funext hpermB]

end Sys2Proof.Machine

/-! PROOFS. MODEXP: its issue step, one MX step with its end, the width of its products, and the run to its end state
(41_modexp.md R140 to R146). -/

namespace Sys2Proof.Machine

/-! ## The issue step -/

theorem exec_modexp_of_idle {s : State} (hp : s.phase = .idle) : exec .modexp s = .next (mxIssue s) := by
  rw [exec, execModexp, issue_none_of_idle hp]

theorem mxIssue_of_mod_zero {s : State} (hm : s.mxMod = 0#32) :
    mxIssue s = complete .zeroModulus { s with mxResult := 0#32 } := by
  rw [mxIssue, if_pos hm]

theorem mxIssue_of_mod_ne_zero {s : State} (hm : s.mxMod ≠ 0#32) : mxIssue s = mxStart (mxInit s) := by
  rw [mxIssue, if_neg hm]

/-- Settles O11: the zero modulus first, then MX_INIT, after which the exponent decides. -/
theorem modexpIssues : Obligations.ModexpIssues := by
  intro s hp
  rw [exec_modexp_of_idle hp]
  refine ⟨fun hm => ?_, fun hm he => ?_, fun hm he => ?_⟩
  · rw [mxIssue_of_mod_zero hm, ← reject, reject_of_idle (s := { s with mxResult := 0#32 }) hp, codeBits]
  · have hresult : (mxInit s).acc.setWidth 32 = BitVec.ofNat 32 (1 % s.mxMod.toNat) := by
      rw [mxInit_acc, BitVec.setWidth_ofNat_of_le (by decide)]
    rw [mxIssue_of_mod_ne_zero hm, mxStart, mxInit_e, if_pos he, mxComplete, hresult,
      ← reject, reject_of_idle (s := { mxInit s with mxResult := _ }) hp, mxInit, he, codeBits]
  · rw [mxIssue_of_mod_ne_zero hm, mxStart, mxInit_e, if_neg he, mxInit]

/-! ## One step -/

/-- An MX step, its end apart (41_modexp.md R142). -/
def mxAdvance (s : State) : State :=
  { s with acc := mxAcc s, b := BitVec.ofNat 32 (mulMod s.b.toNat s.b.toNat s.m.toNat), e := s.e >>> 1 }

theorem mxBody_eq (s : State) : mxBody s = mxEnd (mxAdvance s) := rfl

theorem engineTurn_mxBody {s : State} (hp : s.phase = .mx) (he : s.e ≠ 0#32) (hm : s.m ≠ 0#32) :
    engineTurn s = .next (mxBody s) := by
  rw [engineTurn_mx hp, mxStep, if_pos ⟨he, hm⟩]

theorem mxEnd_of_zero {s : State} (h : s.e = 0#32) : mxEnd s = mxComplete s := by
  rw [mxEnd, if_pos h]

theorem mxEnd_of_ne_zero {s : State} (h : s.e ≠ 0#32) : mxEnd s = s := by
  rw [mxEnd, if_neg h]

@[simp] theorem mxBody_acc (s : State) : (mxBody s).acc = mxAcc s := by unfold mxBody mxEnd; split_ifs <;> rfl
@[simp] theorem mxBody_b (s : State) :
    (mxBody s).b = BitVec.ofNat 32 (mulMod s.b.toNat s.b.toNat s.m.toNat) := by
  unfold mxBody mxEnd; split_ifs <;> rfl
@[simp] theorem mxBody_m (s : State) : (mxBody s).m = s.m := by unfold mxBody mxEnd; split_ifs <;> rfl

/-- The lowest bit of the exponent is its parity. -/
theorem getLsbD_zero_iff (e : Word) : e.getLsbD 0 = true ↔ e.toNat % 2 = 1 := by
  rw [getLsbD_eq_decide, pow_zero, Nat.div_one, decide_eq_true_iff]

theorem mxAcc_eq (s : State) :
    mxAcc s = if s.e.toNat % 2 = 1 then BitVec.ofNat 64 (s.acc.toNat * s.b.toNat % s.m.toNat) else s.acc := by
  simp only [mxAcc, getLsbD_zero_iff, mulMod]

theorem toNat_shiftRight_one (e : Word) : (e >>> 1).toNat = e.toNat / 2 := by
  rw [BitVec.toNat_ushiftRight, Nat.shiftRight_eq_div_pow, pow_one]

/-- Settles O16: the body of the step, its registers as numbers, and its two ends. -/
theorem mxStepFollowsItsRule : Obligations.MxStepFollowsItsRule := by
  intro s hp
  refine ⟨fun h => h.mxPhase hp, fun he hm => ?_⟩
  simp only [← mxAcc_eq, BitVec.ofNat_toNat, engineTurn_mxBody hp he hm, mxBody_eq, ← toNat_shiftRight_one]
  refine ⟨fun h => ?_, fun h => ?_⟩
  · have hne : (mxAdvance s).e ≠ 0#32 := fun h0 => h (congrArg BitVec.toNat h0)
    rw [mxEnd_of_ne_zero hne]
    rfl
  · have hzero : s.e >>> 1 = 0#32 := BitVec.eq_of_toNat_eq h
    rw [mxEnd_of_zero (s := mxAdvance s) hzero, mxAdvance, hzero]
    rfl

/-! ## The width of the products -/

theorem mul_le_of_reduced {x y : Nat} {m : Word} (hx : x < m.toNat) (hy : y < m.toNat) : x * y ≤ (2 ^ 32 - 2) ^ 2 := by
  have := m.isLt
  rw [sq]
  exact Nat.mul_le_mul (by omega) (by omega)

/-- A product that fits 64 bits, reduced by a 64-bit datapath (41_modexp.md R146). -/
theorem mul_umod_eq_ofNat {x y m : BitVec 64} (h : x.toNat * y.toNat ≤ (2 ^ 32 - 2) ^ 2) :
    x * y % m = BitVec.ofNat 64 (x.toNat * y.toNat % m.toNat) := by
  apply BitVec.eq_of_toNat_eq
  have hlt : x.toNat * y.toNat < 2 ^ 64 := h.trans_lt (by decide)
  rw [BitVec.toNat_umod, BitVec.toNat_mul, Nat.mod_eq_of_lt hlt, BitVec.toNat_ofNat,
    Nat.mod_eq_of_lt ((Nat.mod_le _ _).trans_lt hlt)]

theorem toNat_setWidth_64 (v : Word) : (v.setWidth 64).toNat = v.toNat :=
  BitVec.toNat_setWidth_of_le (by decide)

/-- Settles O17: both factors are below e.m, and the next state is legal again. -/
theorem mxProductsFitTheDatapath : Obligations.MxProductsFitTheDatapath := by
  intro s h hp
  obtain ⟨he, hm⟩ := h.mxPhase hp
  obtain ⟨hb, hacc⟩ := h.mxReduced hm
  obtain ⟨hb', hacc'⟩ := (inv_mxBody h hp).mxReduced (by rwa [mxBody_m])
  have hmul := mul_le_of_reduced hacc hb
  have hsq := mul_le_of_reduced hb hb
  rw [mxBody_m] at hb' hacc'
  refine ⟨⟨hmul, hsq⟩, mxBody s, engineTurn_mxBody hp he hm, ?_, ?_, hacc', hb'⟩
  · rw [← toNat_setWidth_64 s.b] at hmul
    rw [mxBody_acc, mul_umod_eq_ofNat hmul, toNat_setWidth_64, toNat_setWidth_64]
    rfl
  · rw [← toNat_setWidth_64 s.b] at hsq
    rw [mxBody_b, mul_umod_eq_ofNat hsq, toNat_setWidth_64, toNat_setWidth_64,
      BitVec.setWidth_ofNat_of_le (by decide)]
    rfl

/-! ## The run -/

/-- Multiplying where the exponent is odd, and squaring, keeps `acc * b ^ e` modulo `m` while `e` is halved
(41_modexp.md R145). -/
theorem square_and_multiply (acc b e m : Nat) :
    (if e % 2 = 1 then acc * b % m else acc) * (b * b % m) ^ (e / 2) % m = acc * b ^ e % m := by
  have hsquare : (b * b % m) ^ (e / 2) ≡ b ^ (2 * (e / 2)) [MOD m] := by
    rw [pow_mul, sq]
    exact (Nat.mod_modEq (b * b) m).pow (e / 2)
  split_ifs with hodd
  · calc acc * b % m * (b * b % m) ^ (e / 2)
        ≡ acc * b * b ^ (2 * (e / 2)) [MOD m] := (Nat.mod_modEq (acc * b) m).mul hsquare
      _ = acc * b ^ (2 * (e / 2) + 1) := by ring
      _ = acc * b ^ e := by rw [show 2 * (e / 2) + 1 = e by omega]
  · calc acc * (b * b % m) ^ (e / 2)
        ≡ acc * b ^ (2 * (e / 2)) [MOD m] := hsquare.mul_left acc
      _ = acc * b ^ e := by rw [show 2 * (e / 2) = e by omega]

/-- A remainder fits a word of 32 bits or more. -/
theorem toNat_ofNat_mod {w : Nat} (hw : 32 ≤ w) (x : Nat) {m : Word} (hm : m ≠ 0#32) :
    (BitVec.ofNat w (x % m.toNat)).toNat = x % m.toNat := by
  have hlt : x % m.toNat < m.toNat := Nat.mod_lt x (BitVec.toNat_pos_of_ne_zero hm)
  rw [BitVec.toNat_ofNat, Nat.mod_eq_of_lt (hlt.trans (m.isLt.trans_le (Nat.pow_le_pow_right (by decide) hw)))]

/-- What the engine's registers stand for: the power still to be taken, times the accumulator (41_modexp.md R145). -/
def mxValue (s : State) : Nat := s.acc.toNat * s.b.toNat ^ s.e.toNat % s.m.toNat

/-- R145's invariant: an MX step keeps the value. -/
theorem mxValue_mxAdvance {s : State} (hm : s.m ≠ 0#32) : mxValue (mxAdvance s) = mxValue s := by
  have hb : (mxAdvance s).b.toNat = s.b.toNat * s.b.toNat % s.m.toNat := toNat_ofNat_mod le_rfl _ hm
  have hacc : (mxAdvance s).acc.toNat =
      if s.e.toNat % 2 = 1 then s.acc.toNat * s.b.toNat % s.m.toNat else s.acc.toNat := by
    rw [mxAdvance, mxAcc_eq, apply_ite BitVec.toNat, toNat_ofNat_mod (by decide) _ hm]
  have he : (mxAdvance s).e.toNat = s.e.toNat / 2 := toNat_shiftRight_one s.e
  rw [mxValue, hacc, hb, he]
  exact square_and_multiply _ _ _ _

/-- The exponentiation at `s` has completed in `t`: the result, and everything else (41_modexp.md R142, R143). -/
structure MxDone (s t : State) : Prop where
  result : t.mxResult.toNat = mxValue s
  frame : t = { s with
    mxResult := t.mxResult, phase := .idle, err := 0x0#4, done := true, acc := t.acc, b := t.b, e := 0#32 }

/-- With the exponent used up, the reduced accumulator is the value (41_modexp.md R143). -/
theorem mxDone_mxComplete {s : State} (he : s.e = 0#32) (hacc : s.acc.toNat < s.m.toNat) :
    MxDone s (mxComplete s) where
  result := by
    rw [mxComplete_mxResult, BitVec.toNat_setWidth, Nat.mod_eq_of_lt (hacc.trans s.m.isLt), mxValue, he]
    simp [Nat.mod_eq_of_lt hacc]
  frame := by
    rw [← he]
    rfl

/-- Ending where a step later ends. -/
theorem MxDone.of_mxAdvance {s t : State} (hm : s.m ≠ 0#32) (h : MxDone (mxAdvance s) t) : MxDone s t where
  result := h.result.trans (mxValue_mxAdvance hm)
  frame := h.frame

/-- BUSY all the while, with one step before. -/
theorem BusyFor.cons {n : Nat} {s t : State} (hs : s.busy = true) (h : step s = .next t) (h' : BusyFor n t) :
    BusyFor (n + 1) s
  | 0, _ => ⟨s, rfl, hs⟩
  | i + 1, hi => by
    rw [run_succ h]
    exact h' i (Nat.lt_of_succ_lt_succ hi)

/-- The exponentiation takes as many engine steps as the exponent has bits, BUSY before each (41_modexp.md R142,
R144). -/
theorem run_mx {n : Nat} {s : State} (hn : bitlen s.e.toNat = n) (hp : s.phase = .mx) (hin : s.inputs = [])
    (hm : s.m ≠ 0#32) (hacc : s.acc.toNat < s.m.toNat) :
    ∃ t, run n (mxEnd s) = .next t ∧ BusyFor n (mxEnd s) ∧ MxDone s t := by
  induction n generalizing s with
  | zero =>
    have he : s.e = 0#32 := BitVec.eq_of_toNat_eq (bitlen_eq_zero_iff.1 hn)
    rw [mxEnd_of_zero he]
    exact ⟨mxComplete s, rfl, nofun, mxDone_mxComplete he hacc⟩
  | succ n ih =>
    have he : s.e.toNat ≠ 0 := fun h0 => by simp [bitlen_eq_zero_iff.2 h0] at hn
    have hne : s.e ≠ 0#32 := fun h0 => he (congrArg BitVec.toNat h0)
    have hhalf : bitlen (s.e >>> 1).toNat = n := by
      rw [bitlen_half he] at hn
      rw [toNat_shiftRight_one]
      omega
    have hstep : step s = .next (mxEnd (mxAdvance s)) := by
      rw [step_alone hin, engineTurn_mxBody hp hne hm, mxBody_eq]
    obtain ⟨t, hrun, hbusy, ht⟩ := ih (s := mxAdvance s) hhalf hp hin hm (mxAcc_lt hm hacc)
    rw [mxEnd_of_ne_zero hne]
    exact ⟨t, (run_succ hstep).trans hrun, hbusy.cons (by rw [State.busy, hp]; rfl) hstep, ht.of_mxAdvance hm⟩

/-- A start with the exponent 0 ends at once, as a step that leaves no exponent does (41_modexp.md R140, R142). -/
theorem mxStart_eq_mxEnd (s : State) : mxStart s = mxEnd { s with phase := .mx } := rfl

/-- MX_INIT's registers stand for the power (41_modexp.md R141, R145). -/
theorem mxValue_mxInit {s : State} (hm : s.mxMod ≠ 0#32) :
    mxValue (mxInit s) = modexpOf s.mxBase.toNat s.mxExp.toNat s.mxMod.toNat := by
  have hmod : s.mxMod.toNat ≠ 0 := (BitVec.toNat_pos_of_ne_zero hm).ne'
  have hpow := (Nat.mod_modEq 1 s.mxMod.toNat).mul ((Nat.mod_modEq s.mxBase.toNat s.mxMod.toNat).pow s.mxExp.toNat)
  rw [one_mul] at hpow
  rw [mxValue, mxInit_acc, mxInit_b, mxInit_e, mxInit_m, toNat_ofNat_mod (by decide) _ hm, toNat_ofNat_mod le_rfl _ hm,
    modexpOf, if_neg hmod]
  exact hpow

/-- Settles O21: the zero modulus completes at once, any other runs as many steps as the exponent has bits. -/
theorem modexpReachesItsEndState : Obligations.ModexpReachesItsEndState := by
  intro s hp hin
  by_cases hm : s.mxMod = 0#32
  · simp only [if_pos hm]
    refine ⟨Nat.zero_le 32, _, _, exec_modexp_of_idle hp, rfl, nofun, ?_⟩
    rw [mxIssue_of_mod_zero hm]
    exact ⟨(if_pos (congrArg BitVec.toNat hm)).symm, rfl, fun _ => ⟨rfl, rfl, rfl, rfl⟩, fun h => absurd hm h⟩
  · simp only [if_neg hm]
    obtain ⟨t, hrun, hbusy, hresult, hframe⟩ := run_mx (s := { mxInit s with phase := .mx }) rfl rfl hin hm
      (toNat_ofNat_mod_lt 64 1 hm)
    have he : t.e = 0#32 := congrArg State.e hframe
    have hm' : t.m = s.mxMod := congrArg State.m hframe
    refine ⟨bitlen_le s.mxExp.isLt, _, t, exec_modexp_of_idle hp, ?_⟩
    rw [mxIssue_of_mod_ne_zero hm, mxStart_eq_mxEnd]
    refine ⟨hrun, hbusy, hresult.trans (mxValue_mxInit hm), ?_, fun h => absurd h hm, fun _ => ⟨he, hm'⟩⟩
    rw [he, hm']
    exact hframe

end Sys2Proof.Machine

/-! PROOFS. The RC4 engine and the MODEXP engine share no data: each one's side of the state is what it writes, and its
side with the phase is what it reads (41_modexp.md R147). -/

namespace Sys2Proof.Machine

/-! ## The two sides -/

/-- The RC4 side of a state, with everything else as at reset. -/
def rc4Side (s : State) : State :=
  { State.reset with
    cfg := s.cfg, epoch := s.epoch, keyLen := s.keyLen, dataLen := s.dataLen
    keyStore := s.keyStore, permStore := s.permStore, dataStore := s.dataStore
    op := s.op, c := s.c, kidx := s.kidx, i := s.i, j := s.j, k := s.k }

/-- The MODEXP side of a state, with everything else as at reset. -/
def mxSide (s : State) : State :=
  { State.reset with
    mxBase := s.mxBase, mxExp := s.mxExp, mxMod := s.mxMod, mxResult := s.mxResult
    acc := s.acc, b := s.b, e := s.e, m := s.m }

/-- The RC4 side and the phase. -/
def rc4View (s : State) : State := { rc4Side s with phase := s.phase }

/-- The MODEXP side and the phase. -/
def mxView (s : State) : State := { mxSide s with phase := s.phase }

theorem sameRc4_of_rc4Side {s t : State} (h : rc4Side t = rc4Side s) : SameRc4 s t := by
  simp only [rc4Side, State.mk.injEq] at h
  simp only [SameRc4, h, and_self]

theorem sameMx_of_mxSide {s t : State} (h : mxSide t = mxSide s) : SameMx s t := by
  simp only [mxSide, State.mk.injEq] at h
  simp only [SameMx, h, and_self]

theorem rc4View_eq_iff {s t : State} : rc4View t = rc4View s ↔ SameRc4 s t ∧ t.phase = s.phase := by
  refine ⟨fun h => ⟨sameRc4_of_rc4Side (congrArg rc4Side h :), (congrArg State.phase h :)⟩, fun ⟨h, hp⟩ => ?_⟩
  simp only [SameRc4] at h
  simp only [rc4View, rc4Side, h, hp]

theorem mxView_eq_iff {s t : State} : mxView t = mxView s ↔ SameMx s t ∧ t.phase = s.phase := by
  refine ⟨fun h => ⟨sameMx_of_mxSide (congrArg mxSide h :), (congrArg State.phase h :)⟩, fun ⟨h, hp⟩ => ?_⟩
  simp only [SameMx] at h
  simp only [mxView, mxSide, h, hp]

/-! ## What each engine leaves -/

theorem mxSide_ksaEnd (s : State) : mxSide (ksaEnd s) = mxSide s := by
  unfold ksaEnd; split_ifs <;> rfl

theorem mxSide_prgaEnd (s : State) : mxSide (prgaEnd s) = mxSide s := by
  unfold prgaEnd; split_ifs <;> rfl

theorem mxSide_ksaBody (s : State) : mxSide (ksaBody s) = mxSide s := by
  rw [ksaBody, mxSide_ksaEnd, ksaAdvance_ksaSwap_eq, mxSide, mxSide]

theorem mxSide_prgaBody (s : State) : mxSide (prgaBody s) = mxSide s := by
  rw [prgaBody, mxSide_prgaEnd, prgaCombine_prgaSwap_eq, mxSide, mxSide]

theorem rc4Side_mxBody (s : State) : rc4Side (mxBody s) = rc4Side s := by
  unfold mxBody mxEnd; split_ifs <;> rfl

theorem rc4Side_mxIssue (s : State) : rc4Side (mxIssue s) = rc4Side s := by
  unfold mxIssue mxStart; split_ifs <;> rfl

/-- Issuing a command leaves what setting OVR, a rejection and the start leave. -/
theorem side_issue {side : State → State} {code : Option Code} {start : State → State} {s : State}
    (hovr : side { s with ovr := true } = side s) (hreject : ∀ r, side (complete r s) = side s)
    (hstart : side (start s) = side s) : side (issue code start s) = side s := by
  obtain ⟨-, h⟩ | ⟨-, r, -, h⟩ | ⟨-, -, h⟩ := issue_cases code start s <;> rw [h]
  · exact hovr
  · exact hreject r
  · exact hstart

/-! ## What each engine reads -/

/-- What `view` shows of `f`'s answer depends on no more than what `view` shows of its input. -/
def ReadsOnly (view f : State → State) : Prop := ∀ s, view (f s) = view (f (view s))

theorem ReadsOnly.congr {view f : State → State} (h : ReadsOnly view f) {s t : State} (hst : view t = view s) :
    view (f t) = view (f s) := by
  rw [h t, h s, hst]

theorem ReadsOnly.comp {view f g : State → State} (hf : ReadsOnly view f) (hg : ReadsOnly view g) :
    ReadsOnly view (f ∘ g) :=
  fun s => hf.congr (hg s)

theorem readsOnly_ksaEnd : ReadsOnly rc4View ksaEnd := by
  intro s
  have hc : (rc4View s).c = s.c := rfl
  have hop : (rc4View s).op = s.op := rfl
  unfold ksaEnd
  rw [hc, hop]
  split_ifs <;> rfl

theorem readsOnly_prgaEnd : ReadsOnly rc4View prgaEnd := by
  intro s
  have hk : (rc4View s).k = s.k := rfl
  have hlen : (rc4View s).dataLen = s.dataLen := rfl
  unfold prgaEnd
  rw [hk, hlen]
  split_ifs <;> rfl

theorem readsOnly_ksaBody : ReadsOnly rc4View ksaBody :=
  readsOnly_ksaEnd.comp fun _ => rfl

theorem readsOnly_prgaBody : ReadsOnly rc4View prgaBody :=
  readsOnly_prgaEnd.comp fun _ => rfl

theorem readsOnly_mxBody : ReadsOnly mxView mxBody := by
  intro s
  have he : (mxView s).e = s.e := rfl
  unfold mxBody mxEnd
  rw [he]
  split_ifs <;> rfl

theorem readsOnly_mxIssue : ReadsOnly mxView mxIssue := by
  intro s
  have hm : (mxView s).mxMod = s.mxMod := rfl
  have he : (mxView s).mxExp = s.mxExp := rfl
  unfold mxIssue mxStart
  rw [hm, mxInit_e, mxInit_e, he]
  split_ifs <;> rfl

/-- Issuing a command reads the phase, and what the code and the start read. -/
theorem readsOnly_issue {view : State → State} {code : State → Option Code} {start : State → State}
    (hphase : ∀ s, (view s).phase = s.phase) (hcode : ∀ s, code (view s) = code s)
    (hovr : ReadsOnly view fun s => { s with ovr := true }) (hreject : ∀ r, ReadsOnly view (complete r))
    (hstart : ReadsOnly view start) : ReadsOnly view fun s => issue (code s) start s := by
  intro s
  have hbusy : (view s).busy = s.busy := by rw [State.busy, State.busy, hphase]
  simp only [hcode, issue, gated, hbusy]
  cases s.busy with
  | true => exact hovr s
  | false =>
    cases code s with
    | some r => exact hreject r s
    | none => exact hstart s

/-! ## Turns and commands -/

/-- A turn of the RC4 engine is the body of the step its phase names. -/
theorem eq_ksaBody_of_engineTurn {s t : State} (hp : s.phase = .ksa) (h : engineTurn s = .next t) : t = ksaBody s := by
  rw [engineTurn_ksa hp, ksaStep] at h
  split_ifs at h
  cases h
  rfl

theorem eq_prgaBody_of_engineTurn {s t : State} (hp : s.phase = .prga) (h : engineTurn s = .next t) :
    t = prgaBody s := by
  rw [engineTurn_prga hp, prgaStep] at h
  split_ifs at h
  cases h
  rfl

theorem eq_mxBody_of_engineTurn {s t : State} (hp : s.phase = .mx) (h : engineTurn s = .next t) : t = mxBody s := by
  rw [engineTurn_mx hp, mxStep] at h
  split_ifs at h
  cases h
  rfl

/-- An RC4 command is the issue of a code and a start that both read the RC4 side alone, and the start writes no other
(40_rc4.md R110 to R112). -/
theorem exec_rc4_eq_issue {i : Instr} (hi : i ≠ .modexp) :
    ∃ (code : State → Option Code) (start : State → State),
      (∀ s, exec i s = .next (issue (code s) start s)) ∧ (∀ s, code (rc4View s) = code s) ∧
      ReadsOnly rc4View start ∧ ∀ s, mxSide (start s) = mxSide s := by
  cases i with
  | rc4Cipher => exact ⟨cipherCode, startKsa opCipher, fun _ => rfl, fun _ => rfl, fun _ => rfl, fun _ => rfl⟩
  | rc4Schedule => exact ⟨keyLenCode, startKsa opSchedule, fun _ => rfl, fun _ => rfl, fun _ => rfl, fun _ => rfl⟩
  | rc4Generate => exact ⟨dataLenCode, startPrga opGenerate, fun _ => rfl, fun _ => rfl, fun _ => rfl, fun _ => rfl⟩
  | modexp => exact absurd rfl hi

theorem mxSide_of_exec {i : Instr} {s t : State} (hi : i ≠ .modexp) (h : exec i s = .next t) :
    mxSide t = mxSide s := by
  obtain ⟨code, start, hexec, -, -, hstart⟩ := exec_rc4_eq_issue hi
  rw [hexec] at h
  cases h
  exact side_issue rfl (fun _ => rfl) (hstart s)

theorem rc4View_of_exec {i : Instr} {s₁ s₂ t₁ t₂ : State} (hi : i ≠ .modexp) (hs : rc4View s₂ = rc4View s₁)
    (h₁ : exec i s₁ = .next t₁) (h₂ : exec i s₂ = .next t₂) : rc4View t₂ = rc4View t₁ := by
  obtain ⟨code, start, hexec, hcode, hstart, -⟩ := exec_rc4_eq_issue hi
  rw [hexec] at h₁ h₂
  cases h₁
  cases h₂
  exact (readsOnly_issue (view := rc4View) (fun _ => rfl) hcode (fun _ => rfl) (fun _ _ => rfl) hstart).congr hs

theorem rc4Side_of_exec_modexp {s t : State} (h : exec .modexp s = .next t) : rc4Side t = rc4Side s := by
  cases h
  exact side_issue rfl (fun _ => rfl) (rc4Side_mxIssue s)

theorem mxView_of_exec_modexp {s₁ s₂ t₁ t₂ : State} (hs : mxView s₂ = mxView s₁) (h₁ : exec .modexp s₁ = .next t₁)
    (h₂ : exec .modexp s₂ = .next t₂) : mxView t₂ = mxView t₁ := by
  cases h₁
  cases h₂
  exact (readsOnly_issue (view := mxView) (code := fun _ => none) (fun _ => rfl) (fun _ => rfl) (fun _ => rfl)
    (fun _ _ => rfl) readsOnly_mxIssue).congr hs

/-! ## The statement -/

/-- Settles O54: what each engine leaves, and what it reads, for its steps and for its commands. -/
theorem theTwoEnginesShareNoData : Obligations.TheTwoEnginesShareNoData := by
  refine ⟨?rc4Leaves, ?mxLeaves, ?rc4CommandLeaves, ?modexpLeaves, ?rc4Reads, ?mxReads, ?rc4CommandReads, ?modexpReads⟩
  case rc4Leaves =>
    rintro s t (hp | hp) h
    · exact sameMx_of_mxSide (eq_ksaBody_of_engineTurn hp h ▸ mxSide_ksaBody s)
    · exact sameMx_of_mxSide (eq_prgaBody_of_engineTurn hp h ▸ mxSide_prgaBody s)
  case mxLeaves =>
    intro s t hp h
    exact sameRc4_of_rc4Side (eq_mxBody_of_engineTurn hp h ▸ rc4Side_mxBody s)
  case rc4CommandLeaves =>
    intro s t i hi h
    exact sameMx_of_mxSide (mxSide_of_exec hi h)
  case modexpLeaves =>
    intro s t h
    exact sameRc4_of_rc4Side (rc4Side_of_exec_modexp h)
  case rc4Reads =>
    rintro s₁ s₂ t₁ t₂ (hp | hp) hphase hs h₁ h₂ <;> rw [← rc4View_eq_iff]
    · rw [eq_ksaBody_of_engineTurn hp h₁, eq_ksaBody_of_engineTurn (hphase.trans hp) h₂]
      exact readsOnly_ksaBody.congr (rc4View_eq_iff.2 ⟨hs, hphase⟩)
    · rw [eq_prgaBody_of_engineTurn hp h₁, eq_prgaBody_of_engineTurn (hphase.trans hp) h₂]
      exact readsOnly_prgaBody.congr (rc4View_eq_iff.2 ⟨hs, hphase⟩)
  case mxReads =>
    intro s₁ s₂ t₁ t₂ hp₁ hp₂ hs h₁ h₂
    rw [← mxView_eq_iff, eq_mxBody_of_engineTurn hp₁ h₁, eq_mxBody_of_engineTurn hp₂ h₂]
    exact readsOnly_mxBody.congr (mxView_eq_iff.2 ⟨hs, hp₂.trans hp₁.symm⟩)
  case rc4CommandReads =>
    intro s₁ s₂ t₁ t₂ i hi hphase hs h₁ h₂
    exact rc4View_eq_iff.1 (rc4View_of_exec hi (rc4View_eq_iff.2 ⟨hs, hphase⟩) h₁ h₂)
  case modexpReads =>
    intro s₁ s₂ t₁ t₂ hphase hs h₁ h₂
    exact mxView_eq_iff.1 (mxView_of_exec_modexp (mxView_eq_iff.2 ⟨hs, hphase⟩) h₁ h₂)

end Sys2Proof.Machine

/-! PROOFS. No run from a legal state stops, what a command does when it is dropped or rejected, and irq as the host reads
it (60_exceptions.md R160 to R165). -/

namespace Sys2Proof.Machine

/-! ## No step from a legal state stops -/

/-- A legal state's engine step is at a position that has one, so none of the three faults arises (40_rc4.md R115, R118;
41_modexp.md R142). -/
theorem engineTurn_next_of_inv {s : State} (h : Inv s) : ∃ t, engineTurn s = .next t := by
  cases hp : s.phase with
  | idle => exact ⟨s, engineTurn_idle hp⟩
  | ksa =>
    obtain ⟨hc, hk, -⟩ := (ksaStepFollowsItsRule s hp).1 h
    exact ⟨ksaBody s, engineTurn_ksaBody hp (by omega) (by omega)⟩
  | prga =>
    obtain ⟨-, hk, hle⟩ := h.prgaPhase hp
    exact ⟨prgaBody s, engineTurn_prgaBody hp hk (hk.trans_le hle)⟩
  | mx =>
    obtain ⟨he, hm⟩ := h.mxPhase hp
    exact ⟨mxBody s, engineTurn_mxBody hp he hm⟩

/-- An access and a reset cycle answer a next state from any state, the engine's turn from a legal one. -/
theorem step_next_of_inv {s : State} (h : Inv s) : ∃ t, step s = .next t := by
  cases hi : s.inputs with
  | nil => exact step_alone hi ▸ engineTurn_next_of_inv h
  | cons ev rest =>
    cases ev with
    | access a => exact step_access hi ▸ busAccess_next a _
    | engine => exact step_engine hi ▸ engineTurn_next_of_inv { h with }
    | reset p => exact ⟨_, step_reset hi⟩

/-- Settles O30, by induction on the number of steps: a legal state has a next state, and that one is legal. -/
theorem noRunFromALegalStateStops : Obligations.NoRunFromALegalStateStops := by
  intro s hs n
  induction n generalizing s with
  | zero => exact ⟨s, run_zero s⟩
  | succ n ih =>
    obtain ⟨t, ht⟩ := step_next_of_inv hs
    rw [run_succ ht]
    exact ih t (stepKeepsLegalStates s t hs ht)

/-! ## A command at CMD -/

theorem writeCmd_of_command {v : Word} {i : Instr} (h : decode v = .command i) (s : State) :
    writeCmd v s = exec i s := by
  rw [writeCmd, h]

/-- Settles O5: a decoded word is run by `exec`, which always answers; the premise on `i` is not used. -/
theorem commandWriteRunsTheDecodedCommand : Obligations.CommandWriteRunsTheDecodedCommand := by
  intro s v i hdec _
  obtain ⟨t, ht⟩ := exec_next i s
  refine ⟨t, ht, ?_⟩
  rw [step_presenting_cmd, writeCmd_of_command hdec, ht, answerWrite, respondWrite]

/-! ## A command while BUSY = 1 -/

/-- A command is the issue of some code and some start (60_exceptions.md R160). -/
theorem exec_eq_issue (i : Instr) (s : State) : ∃ code start, exec i s = .next (issue code start s) := by
  cases i <;> exact ⟨_, _, rfl⟩

/-- Issuing while BUSY = 1 only sets OVR (70_reset_and_hazards.md R200). -/
theorem issue_of_running {s : State} (hp : s.phase ≠ .idle) (code : Option Code) (start : State → State) :
    issue code start s = { s with ovr := true } :=
  gated_busy (busy_eq_true_iff.2 hp)

/-- Settles O13: every command is an issue, and BUSY gates it whatever its code and its start are. -/
theorem commandWhileBusyOnlySetsOvr : Obligations.CommandWhileBusyOnlySetsOvr := by
  intro s i hp
  obtain ⟨code, start, hexec⟩ := exec_eq_issue i s
  rw [hexec, issue_of_running hp]

/-! ## A rejected RC4 command -/

/-- A command with a code to reject it changes the completion record only while BUSY = 0 (60_exceptions.md R162). -/
theorem issue_some_of_idle {s : State} (hp : s.phase = .idle) (code : Code) (start : State → State) :
    issue (some code) start s = { s with err := codeBits code, done := true } :=
  (gated_idle (busy_eq_false_iff.2 hp)).trans (reject_of_idle hp)

/-! What `validate` answers, one law for each code (60_exceptions.md R161). -/

theorem keyLenCode_of_zero {s : State} (h : s.keyLen = 0#9) : keyLenCode s = some .keyLenZero := if_pos h

theorem dataLenCode_of_zero {s : State} (h : s.dataLen = 0#17) : dataLenCode s = some .dataLenZero := if_pos h

theorem dataLenCode_of_beyond {s : State} (h : s.dbufSize < s.dataLen.toNat) :
    dataLenCode s = some .dataLenRange := by
  have hne : s.dataLen ≠ 0#17 := fun h0 => by simp [h0] at h
  rw [dataLenCode, if_neg hne, if_pos h]

/-- A code of the data checks comes before the key check. -/
theorem cipherCode_of_dataLenCode {s : State} {code : Code} (h : dataLenCode s = some code) :
    cipherCode s = some code := by
  rw [cipherCode, h]

/-- The key check decides once the data checks pass. -/
theorem cipherCode_of_dataLen_accepted {s : State} (h : dataLenCode s = none) : cipherCode s = keyLenCode s := by
  rw [cipherCode, h]

/-! The three commands, each rejected with the code of its checks. -/

theorem exec_rc4Cipher_of_rejected {s : State} {code : Code} (hp : s.phase = .idle) (h : cipherCode s = some code) :
    exec .rc4Cipher s = .next { s with err := codeBits code, done := true } := by
  rw [exec, execRc4Cipher, h, issue_some_of_idle hp]

theorem exec_rc4Schedule_of_rejected {s : State} {code : Code} (hp : s.phase = .idle) (h : keyLenCode s = some code) :
    exec .rc4Schedule s = .next { s with err := codeBits code, done := true } := by
  rw [exec, execRc4Schedule, h, issue_some_of_idle hp]

theorem exec_rc4Generate_of_rejected {s : State} {code : Code} (hp : s.phase = .idle)
    (h : dataLenCode s = some code) : exec .rc4Generate s = .next { s with err := codeBits code, done := true } := by
  rw [exec, execRc4Generate, h, issue_some_of_idle hp]

/-- Settles O12: each of its premises fixes what the command's checks answer. -/
theorem rejectionReportsTheFirstCode : Obligations.RejectionReportsTheFirstCode := by
  intro s hp
  refine ⟨fun h0 => ?_, fun hbeyond => ?_, fun hne hle hkey => ?_, fun hkey => ?_, fun h0 => ?_, fun hbeyond => ?_⟩
  · exact exec_rc4Cipher_of_rejected hp (cipherCode_of_dataLenCode (dataLenCode_of_zero h0))
  · exact exec_rc4Cipher_of_rejected hp (cipherCode_of_dataLenCode (dataLenCode_of_beyond hbeyond))
  · have hdata := dataLenCode_eq_none_iff.2 ⟨BitVec.toNat_pos_of_ne_zero hne, hle⟩
    exact exec_rc4Cipher_of_rejected hp ((cipherCode_of_dataLen_accepted hdata).trans (keyLenCode_of_zero hkey))
  · exact exec_rc4Schedule_of_rejected hp (keyLenCode_of_zero hkey)
  · exact exec_rc4Generate_of_rejected hp (dataLenCode_of_zero h0)
  · exact exec_rc4Generate_of_rejected hp (dataLenCode_of_beyond hbeyond)

/-! ## irq -/

/-- DONE is bit 1 of the STATUS word (10_state.md R24). -/
theorem getLsbD_one_statusWord (s : State) : (statusWord s).getLsbD 1 = s.done := by
  rw [statusWord, BitVec.getLsbD_setWidth, BitVec.getLsbD_append, BitVec.getLsbD_append]
  simp

/-- IE is bit 0 of the CTRL word (10_state.md R29). -/
theorem getLsbD_zero_ctrlWord (s : State) : (ctrlWord s).getLsbD 0 = s.ie := by
  simp [ctrlWord]

/-- Settles O55: both reads are exact in every state, and their words hold DONE and IE in those bits. -/
theorem irqIsDoneAndEnable : Obligations.IrqIsDoneAndEnable := by
  intro s
  refine ⟨statusWord s, ctrlWord s, readsAs_exact (l := .status) rfl rfl rfl,
    readsAs_exact (l := .ctrl) rfl rfl rfl, ?_⟩
  rw [getLsbD_one_statusWord, getLsbD_zero_ctrlWord, State.irq]

end Sys2Proof.Machine

/-! PROOFS. Accesses in a reset cycle and while BUSY = 1: the response they get, and what they leave
(70_reset_and_hazards.md R192, R200, R201). -/

namespace Sys2Proof.Machine

/-- Settles O27: the reset step depends on the access in the cycle by its response alone. -/
theorem accessDuringResetIsIgnored : Obligations.AccessDuringResetIsIgnored := fun s off v =>
  ⟨resetStep none s, step_resetting s none, rfl, rfl, step_resetting s (some (.read off)),
    step_resetting s (some (.write off v))⟩

/-! ## Reads while BUSY = 1 -/

/-- A masked location answers the next free value (70_reset_and_hazards.md R201). -/
theorem readLoc_of_masked {s : State} (hb : s.busy = true) {l : Loc} (hl : unspecifiedWhileBusy l = true) :
    readLoc s l = .read (Config.busyRead s.draws) false := by
  cases l with
  | mxResult | perm | data => simp only [readLoc, maskedRead, hb, if_true]
  | _ => cases hl

theorem step_presenting_masked {s : State} (hb : s.busy = true) {off : Offset} {l : Loc}
    (hl : LocAt s.dbufSize off.toNat l) (hmask : unspecifiedWhileBusy l = true) :
    step (s.presenting (.read off)) =
      .next { s with resp := some (.read (Config.busyRead s.draws) false), draws := s.draws + 1 } := by
  simp only [step_presenting, busAccess, busRead, locate_eq hl, readLoc_of_masked hb hmask, hb, hmask, Bool.and_self,
    if_true]

/-- Settles O39: each of the three is a masked location. -/
theorem resultReadsWhileBusyAreFreeValues : Obligations.ResultReadsWhileBusyAreFreeValues := by
  intro s a hb ha
  obtain rfl | ⟨w, hw, rfl⟩ | ⟨w, hw, rfl⟩ := ha
  · exact step_presenting_masked hb (l := .mxResult) rfl rfl
  · exact step_presenting_masked hb (locAt_permWindow s hw) rfl
  · exact step_presenting_masked hb (locAt_dataWindow hw) rfl

/-! ## Writes while BUSY = 1 -/

/-- The locations, CMD apart, whose writes BUSY gates (70_reset_and_hazards.md R200). -/
def gatedWhileBusy : Loc → Bool
  | .keyLen | .dataLen | .mxBase | .mxExp | .mxMod | .key _ | .data _ => true
  | _ => false

theorem writeLoc_of_gated {s : State} (hb : s.busy = true) (v : Word) {l : Loc} (hl : gatedWhileBusy l = true) :
    writeLoc v s l = { s with ovr := true } := by
  cases l with
  | keyLen | dataLen | mxBase | mxExp | mxMod | key | data => rw [writeLoc, gated_busy hb]
  | _ => cases hl

theorem writeErr_of_gated {l : Loc} (hl : gatedWhileBusy l = true) : writeErr l = false := by
  cases l with
  | misaligned | unmapped => cases hl
  | _ => rfl

theorem step_presenting_gated_busy {s : State} (hb : s.busy = true) {off : Offset} (v : Word) {l : Loc}
    (hl : LocAt s.dbufSize off.toNat l) (hg : gatedWhileBusy l = true) :
    step (s.presenting (.write off v)) = .next { s with ovr := true, resp := some (.write false) } := by
  have hcmd : l ≠ .cmd := by rintro rfl; cases hg
  rw [step_presenting_write s off v hl hcmd, writeLoc_of_gated hb v hg, writeErr_of_gated hg, respondWrite]

/-- Whatever word is written to CMD, a command's or a BAD one, BUSY gates it (60_exceptions.md R160). -/
theorem writeCmd_of_busy {s : State} (hb : s.busy = true) (v : Word) : writeCmd v s = .next { s with ovr := true } := by
  cases hd : decode v with
  | command i => rw [writeCmd_of_command hd, commandWhileBusyOnlySetsOvr s i (busy_eq_true_iff.1 hb)]
  | bad why => rw [writeCmd, hd, gated_busy hb]

/-- Settles O45: CMD, the five registers and the words of the two windows. -/
theorem gatedWritesWhileBusyOnlySetOvr : Obligations.GatedWritesWhileBusyOnlySetOvr := by
  intro s a v hb ha
  obtain rfl | rfl | rfl | rfl | rfl | rfl | ⟨w, hw, rfl⟩ | ⟨w, hw, rfl⟩ := ha
  · exact (step_presenting_cmd s v).trans (by rw [writeCmd_of_busy hb, answerWrite, respondWrite])
  · exact step_presenting_gated_busy hb v (l := .keyLen) rfl rfl
  · exact step_presenting_gated_busy hb v (l := .dataLen) rfl rfl
  · exact step_presenting_gated_busy hb v (l := .mxBase) rfl rfl
  · exact step_presenting_gated_busy hb v (l := .mxExp) rfl rfl
  · exact step_presenting_gated_busy hb v (l := .mxMod) rfl rfl
  · exact step_presenting_gated_busy hb v (locAt_keyWindow s hw) rfl
  · exact step_presenting_gated_busy hb v (locAt_dataWindow hw) rfl

end Sys2Proof.Machine

/-! PROOFS. The steps a running command has left: each engine step takes one, no access any, and so every run comes to
rest (40_rc4.md R124; 41_modexp.md R144; 70_reset_and_hazards.md R205). -/

namespace Sys2Proof.Machine

/-! ## The engine's turn as a function -/

/-- The state the engine's turn answers, where it answers one. -/
def engineBody (s : State) : State :=
  match s.phase with
  | .idle => s
  | .ksa => ksaBody s
  | .prga => prgaBody s
  | .mx => mxBody s

theorem engineBody_idle {s : State} (hp : s.phase = .idle) : engineBody s = s := by rw [engineBody, hp]
theorem engineBody_ksa {s : State} (hp : s.phase = .ksa) : engineBody s = ksaBody s := by rw [engineBody, hp]
theorem engineBody_prga {s : State} (hp : s.phase = .prga) : engineBody s = prgaBody s := by rw [engineBody, hp]
theorem engineBody_mx {s : State} (hp : s.phase = .mx) : engineBody s = mxBody s := by rw [engineBody, hp]

theorem engineTurn_of_inv {s : State} (h : Inv s) : engineTurn s = .next (engineBody s) := by
  obtain ⟨t, ht⟩ := engineTurn_next_of_inv h
  obtain ⟨hp, rfl⟩ | ⟨hp, -, -, rfl⟩ | ⟨hp, -, -, rfl⟩ | ⟨hp, -, -, rfl⟩ := engineTurn_cases ht
  · rw [ht, engineBody_idle hp]
  · rw [ht, engineBody_ksa hp]
  · rw [ht, engineBody_prga hp]
  · rw [ht, engineBody_mx hp]

theorem effect_engineBody {s : State} (h : Inv s) : Effect .engine s (engineBody s) :=
  effect_engineTurn (engineTurn_of_inv h)

theorem inv_engineBody {s : State} (h : Inv s) : Inv (engineBody s) :=
  inv_of_effect (effect_engineBody h) h

/-! ## The measure -/

theorem stepsLeft_idle {s : State} (hp : s.phase = .idle) : stepsLeft s = 0 := by
  rw [stepsLeft, hp]

theorem stepsLeft_ksa {s : State} (hp : s.phase = .ksa) :
    stepsLeft s = 256 - s.c.toNat + (if s.op = opCipher then s.dataLen.toNat else 0) := by
  rw [stepsLeft, hp]

theorem stepsLeft_prga {s : State} (hp : s.phase = .prga) : stepsLeft s = s.dataLen.toNat - s.k.toNat := by
  rw [stepsLeft, hp]

theorem stepsLeft_mx {s : State} (hp : s.phase = .mx) : stepsLeft s = bitlen s.e.toNat := by
  rw [stepsLeft, hp]

/-- A legal position has a step left exactly while a command runs. -/
theorem stepsLeft_eq_zero_iff {s : State} (h : Inv s) : stepsLeft s = 0 ↔ s.busy = false := by
  rw [busy_eq_false_iff]
  cases hp : s.phase with
  | idle => simp [stepsLeft_idle hp]
  | ksa =>
    obtain ⟨hc, -⟩ := h.ksaPhase hp
    rw [stepsLeft_ksa hp]
    exact iff_of_false (by omega) nofun
  | prga =>
    obtain ⟨-, hk, -⟩ := h.prgaPhase hp
    rw [stepsLeft_prga hp]
    exact iff_of_false (by omega) nofun
  | mx =>
    obtain ⟨he, -⟩ := h.mxPhase hp
    rw [stepsLeft_mx hp, bitlen_eq_zero_iff]
    exact iff_of_false (BitVec.toNat_pos_of_ne_zero he).ne' nofun

theorem busy_of_stepsLeft_pos {s : State} (h : Inv s) (hpos : 0 < stepsLeft s) : s.busy = true :=
  Bool.of_not_eq_false fun hidle => hpos.ne' ((stepsLeft_eq_zero_iff h).2 hidle)

theorem stepsLeft_mx_le {s : State} (hp : s.phase = .mx) : stepsLeft s ≤ 32 := by
  rw [stepsLeft_mx hp]
  exact bitlen_le s.e.isLt

theorem stepsLeft_le {s : State} (h : Inv s) : stepsLeft s ≤ 256 + s.dbufSize := by
  cases hp : s.phase with
  | idle => simp [stepsLeft_idle hp]
  | ksa =>
    obtain ⟨-, -, -, hop⟩ := h.ksaPhase hp
    rw [stepsLeft_ksa hp]
    obtain ⟨hcipher, -, hle⟩ | hsched := hop
    · rw [if_pos hcipher]
      omega
    · rw [if_neg (by rw [hsched]; decide)]
      omega
  | prga =>
    obtain ⟨-, -, hle⟩ := h.prgaPhase hp
    rw [stepsLeft_prga hp]
    omega
  | mx => exact (stepsLeft_mx_le hp).trans (by omega)

/-! One engine step of each kind. -/

theorem stepsLeft_ksaBody {s : State} (hp : s.phase = .ksa) (hc : s.c.toNat < 256) :
    stepsLeft (ksaBody s) + 1 = stepsLeft s := by
  rw [stepsLeft_ksa hp]
  by_cases hlast : s.c.toNat = 255
  · by_cases hop : s.op = opCipher
    · rw [ksaBody_cipher hlast hop, stepsLeft_prga rfl, if_pos hop, hlast]
      exact Nat.add_comm _ 1
    · rw [ksaBody_schedule hlast hop, stepsLeft_idle rfl, if_neg hop, hlast]
  · have hcount := toNat_c_succ hc
    rw [ksaBody_of_lt (by omega), stepsLeft_ksa]
    · simp only [hcount]
      omega
    · exact hp

theorem stepsLeft_prgaBody {s : State} (hp : s.phase = .prga) (hk : s.k.toNat < s.dataLen.toNat) :
    stepsLeft (prgaBody s) + 1 = stepsLeft s := by
  rw [stepsLeft_prga hp]
  by_cases hlast : s.k.toNat + 1 = s.dataLen.toNat
  · rw [prgaBody_of_last hlast, stepsLeft_idle rfl]
    omega
  · have hcount := toNat_k_succ hk
    rw [prgaBody_of_lt (by omega), stepsLeft_prga]
    · simp only [hcount]
      omega
    · exact hp

theorem stepsLeft_mxBody {s : State} (hp : s.phase = .mx) (he : s.e ≠ 0#32) :
    stepsLeft (mxBody s) + 1 = stepsLeft s := by
  have hhalf : bitlen s.e.toNat = bitlen (mxAdvance s).e.toNat + 1 := by
    rw [bitlen_half (BitVec.toNat_pos_of_ne_zero he).ne', ← toNat_shiftRight_one, mxAdvance]
  rw [stepsLeft_mx hp, hhalf, mxBody_eq]
  by_cases hlast : (mxAdvance s).e = 0#32
  · rw [mxEnd_of_zero hlast, stepsLeft_idle rfl, hlast]
    rfl
  · rw [mxEnd_of_ne_zero hlast, stepsLeft_mx (s := mxAdvance s) hp]

/-- Each engine step of a running command takes one of the steps left. -/
theorem stepsLeft_engineBody {s : State} (h : Inv s) (hb : s.busy = true) :
    stepsLeft (engineBody s) + 1 = stepsLeft s := by
  cases hp : s.phase with
  | idle => exact absurd hp (busy_eq_true_iff.1 hb)
  | ksa => rw [engineBody_ksa hp, stepsLeft_ksaBody hp (h.ksaPhase hp).1]
  | prga => rw [engineBody_prga hp, stepsLeft_prgaBody hp (h.prgaPhase hp).2.1]
  | mx => rw [engineBody_mx hp, stepsLeft_mxBody hp (h.mxPhase hp).1]

/-- Settles O33: the bounds and the count of `stepsLeft`; while BUSY = 1 an access reaches nothing the count reads. -/
theorem eachEngineStepBringsTheEndNearer : Obligations.EachEngineStepBringsTheEndNearer := by
  intro s h hb
  refine ⟨stepsLeft_le h, stepsLeft_mx_le, ⟨engineBody s, engineTurn_of_inv h, stepsLeft_engineBody h hb,
    stepsLeft_eq_zero_iff (inv_engineBody h)⟩, fun a => ?_⟩
  obtain ⟨t, ht, hframe⟩ := hostCannotDisturbARunningCommand s a hb
  exact ⟨t, ht, (congrArg stepsLeft hframe :), (congrArg State.busy hframe).trans hb⟩

/-! ## The events to come -/

@[simp] theorem ksaBody_inputs (s : State) : (ksaBody s).inputs = s.inputs := by
  unfold ksaBody ksaEnd; split_ifs <;> rfl

@[simp] theorem prgaBody_inputs (s : State) : (prgaBody s).inputs = s.inputs := by
  unfold prgaBody prgaEnd; split_ifs <;> rfl

@[simp] theorem mxBody_inputs (s : State) : (mxBody s).inputs = s.inputs := by
  unfold mxBody mxEnd; split_ifs <;> rfl

@[simp] theorem mxIssue_inputs (s : State) : (mxIssue s).inputs = s.inputs := by
  unfold mxIssue mxStart; split_ifs <;> rfl

/-- No event touches the list it was taken from. -/
theorem inputs_of_effect {ev : Event} {s t : State} (h : Effect ev s t) : t.inputs = s.inputs := by
  cases h with
  | ksa | prga | mx | modexp | keyWord | dataWord => simp
  | _ => rfl

theorem step_listed {s : State} {ev : Event} {rest : List Event} (h : s.inputs = ev :: rest) :
    step s = runEvent ev { s with inputs := rest } := by
  rw [step, takeStep, h]

/-- Each step takes one event from the list. -/
theorem inputs_of_run {evs rest : List Event} {s t : State} (hi : s.inputs = evs ++ rest)
    (h : run evs.length s = .next t) : t.inputs = rest := by
  induction evs generalizing s with
  | nil => cases h; exact hi
  | cons ev evs ih =>
    obtain ⟨u, hu, hr⟩ := run_succ_inv h
    rw [step_listed (rest := evs ++ rest) hi] at hu
    exact ih (inputs_of_effect (effect_runEvent hu)) hr

/-! ## The engine's turns alone -/

/-- With no event to come every step is the engine's turn. -/
theorem run_alone {s : State} (h : Inv s) (hi : s.inputs = []) (n : Nat) : run n s = .next (engineBody^[n] s) := by
  induction n generalizing s with
  | zero => rfl
  | succ n ih =>
    rw [run_succ ((step_alone hi).trans (engineTurn_of_inv h)), Function.iterate_succ_apply]
    exact ih (inv_engineBody h) ((inputs_of_effect (effect_engineBody h)).trans hi)

theorem inv_iterate_engineBody {s : State} (h : Inv s) (n : Nat) : Inv (engineBody^[n] s) := by
  induction n with
  | zero => exact h
  | succ n ih => rw [Function.iterate_succ_apply']; exact inv_engineBody ih

theorem inputs_iterate_engineBody {s : State} (h : Inv s) (n : Nat) : (engineBody^[n] s).inputs = s.inputs := by
  induction n with
  | zero => rfl
  | succ n ih =>
    rw [Function.iterate_succ_apply']
    exact (inputs_of_effect (effect_engineBody (inv_iterate_engineBody h n))).trans ih

/-- Up to the end of the command, each turn takes one of the steps left. -/
theorem stepsLeft_iterate_engineBody {s : State} (h : Inv s) {n : Nat} (hn : n ≤ stepsLeft s) :
    stepsLeft (engineBody^[n] s) + n = stepsLeft s := by
  induction n with
  | zero => rfl
  | succ n ih =>
    have hprev := ih (by omega)
    have hinv := inv_iterate_engineBody h n
    have := stepsLeft_engineBody hinv (busy_of_stepsLeft_pos hinv (by omega))
    rw [Function.iterate_succ_apply']
    omega

/-- After as many turns as it has steps left, a command has ended. -/
theorem idle_after_stepsLeft {s : State} (h : Inv s) : (engineBody^[stepsLeft s] s).busy = false :=
  (stepsLeft_eq_zero_iff (inv_iterate_engineBody h _)).1
    (Nat.add_eq_right.1 (stepsLeft_iterate_engineBody h le_rfl))

/-- Settles O36: first the listed events happen, then the command that runs has as many turns as it has steps left. -/
theorem everyRunComesToRest : Obligations.EveryRunComesToRest := by
  intro s h
  obtain ⟨t, ht⟩ := noRunFromALegalStateStops s h s.inputs.length
  have hinv := inv_of_run h ht
  have hempty : t.inputs = [] := inputs_of_run (List.append_nil _).symm ht
  have hrest := run_alone hinv hempty (stepsLeft t)
  exact ⟨s.inputs.length + stepsLeft t, engineBody^[stepsLeft t] t, (run_add ht).trans hrest,
    idle_after_stepsLeft hinv, (inputs_iterate_engineBody hinv _).trans hempty⟩

end Sys2Proof.Machine

/-! PROOFS. A run with host accesses between the engine's turns, beside the run of the turns alone: the two agree on all
that the running command reads (00_scope.md R13; 70_reset_and_hazards.md R205). -/

namespace Sys2Proof.Machine

/-! ## What a running command reads -/

/-- The state without what an access can change while BUSY = 1, and without the events to come. -/
def commandView (s : State) : State :=
  { s with done := false, ovr := false, ie := false, resp := none, draws := 0, inputs := [] }

theorem stepsLeft_congr {s t : State} (h : commandView t = commandView s) : stepsLeft t = stepsLeft s :=
  (congrArg stepsLeft h :)

theorem eq_of_commandView {s t : State} (h : commandView t = commandView s) (hdone : t.done = s.done) :
    t = { s with ovr := t.ovr, ie := t.ie, resp := t.resp, draws := t.draws, inputs := t.inputs } := by
  cases s
  cases t
  simp only [commandView, State.mk.injEq] at h hdone ⊢
  simp only [h, hdone, and_self]

theorem commandView_of_access_while_busy {a : Access} {s t : State} (h : Effect (.access a) s t)
    (hb : s.busy = true) : commandView t = commandView s :=
  (congrArg commandView (frame_of_access_while_busy h hb) :)

theorem readsOnly_commandView_ksaBody : ReadsOnly commandView ksaBody := by
  have hend : ReadsOnly commandView ksaEnd := fun s => by
    have hc : (commandView s).c = s.c := rfl
    have hop : (commandView s).op = s.op := rfl
    unfold ksaEnd
    rw [hc, hop]
    split_ifs <;> rfl
  exact hend.comp fun _ => rfl

theorem readsOnly_commandView_prgaBody : ReadsOnly commandView prgaBody := by
  have hend : ReadsOnly commandView prgaEnd := fun s => by
    have hk : (commandView s).k = s.k := rfl
    have hlen : (commandView s).dataLen = s.dataLen := rfl
    unfold prgaEnd
    rw [hk, hlen]
    split_ifs <;> rfl
  exact hend.comp fun _ => rfl

theorem readsOnly_commandView_mxBody : ReadsOnly commandView mxBody := by
  have hend : ReadsOnly commandView mxEnd := fun s => by
    have he : (commandView s).e = s.e := rfl
    unfold mxEnd
    rw [he]
    split_ifs <;> rfl
  exact hend.comp fun _ => rfl

/-- The engine's turn reads nothing that an access can change while BUSY = 1. -/
theorem readsOnly_engineBody : ReadsOnly commandView engineBody := by
  intro s
  have hphase : (commandView s).phase = s.phase := rfl
  cases hp : s.phase with
  | idle => rw [engineBody_idle hp, engineBody_idle (hphase.trans hp)]; rfl
  | ksa => rw [engineBody_ksa hp, engineBody_ksa (hphase.trans hp)]; exact readsOnly_commandView_ksaBody s
  | prga => rw [engineBody_prga hp, engineBody_prga (hphase.trans hp)]; exact readsOnly_commandView_prgaBody s
  | mx => rw [engineBody_mx hp, engineBody_mx (hphase.trans hp)]; exact readsOnly_commandView_mxBody s

theorem commandView_iterate_congr {s t : State} (h : commandView t = commandView s) (n : Nat) :
    commandView (engineBody^[n] t) = commandView (engineBody^[n] s) := by
  induction n with
  | zero => exact h
  | succ n ih =>
    rw [Function.iterate_succ_apply', Function.iterate_succ_apply']
    exact readsOnly_engineBody.congr ih

/-! ## The two runs -/

/-- The last engine step completes the command with OK. -/
theorem completed_of_last_step {s : State} (h : Inv s) (hlast : stepsLeft s = 1) : Completed .ok (engineBody s) := by
  have hb : s.busy = true := busy_of_stepsLeft_pos h (hlast ▸ Nat.one_pos)
  have hend : (engineBody s).busy = false :=
    (stepsLeft_eq_zero_iff (inv_engineBody h)).1 (Nat.succ.inj ((stepsLeft_engineBody h hb).trans hlast))
  obtain ⟨p, hev, -⟩ | ⟨code, hc, hok⟩ | ⟨_, _, hev, -⟩ | hsame := record_of_effect (effect_engineBody h)
  · cases hev
  · exact hok hb ▸ hc
  · cases hev
  · exact absurd ((hsame.busy hb).symm.trans hend) (by decide)

/-- As long as the turns listed do not end the command, the listed events leave what their turns alone leave. -/
theorem commandView_of_run {evs rest : List Event} {s t : State} (h : Inv s) (hi : s.inputs = evs ++ rest)
    (hreset : ∀ p, Event.reset p ∉ evs) (hcount : evs.count .engine < stepsLeft s)
    (hrun : run evs.length s = .next t) :
    commandView t = commandView (engineBody^[evs.count .engine] s) := by
  induction evs generalizing s with
  | nil => cases hrun; rfl
  | cons ev evs ih =>
    obtain ⟨u, hu, hr⟩ := run_succ_inv hrun
    have hinv := stepKeepsLegalStates s u h hu
    rw [step_listed (rest := evs ++ rest) hi] at hu
    have hiu : u.inputs = evs ++ rest := inputs_of_effect (effect_runEvent hu)
    have hreset' : ∀ p, Event.reset p ∉ evs := fun p hp => hreset p (List.mem_cons_of_mem ev hp)
    have hb : s.busy = true := busy_of_stepsLeft_pos h (Nat.zero_lt_of_lt hcount)
    cases ev with
    | reset p => exact absurd List.mem_cons_self (hreset p)
    | access a =>
      have hview : commandView u = commandView s := (commandView_of_access_while_busy (effect_runEvent hu) hb :)
      have hskip : (Event.access a :: evs).count .engine = evs.count .engine :=
        List.count_cons_of_ne (show Event.access a ≠ .engine from nofun)
      rw [hskip] at hcount ⊢
      rw [ih hinv hiu hreset' (by rwa [stepsLeft_congr hview]) hr]
      exact commandView_iterate_congr hview _
    | engine =>
      have hturn : u = engineBody { s with inputs := evs ++ rest } :=
        Host.Outcome.next.inj (hu.symm.trans (engineTurn_of_inv { h with }))
      have hview : commandView u = commandView (engineBody s) := hturn ▸ readsOnly_engineBody.congr rfl
      have hleft := stepsLeft_engineBody h hb
      rw [List.count_cons_self] at hcount ⊢
      rw [ih hinv hiu hreset' (by rw [stepsLeft_congr hview]; omega) hr]
      exact commandView_iterate_congr hview _

/-- Settles O35: before the last turn both runs show the same command, and the last turn completes it in both. That the
command has a step left says that BUSY = 1, so that premise is not used. -/
theorem interleavingDoesNotChangeTheResult : Obligations.InterleavingDoesNotChangeTheResult := by
  intro s evs rest h _ hi hreset hcount
  obtain ⟨v, hv⟩ := noRunFromALegalStateStops s h evs.length
  have hvi : v.inputs = .engine :: rest := inputs_of_run hi hv
  have hvinv : Inv { v with inputs := rest } := { inv_of_run h hv with }
  have hs : Inv { s with inputs := [] } := { h with }
  have hw := inv_iterate_engineBody hs (evs.count .engine)
  have hview : commandView { v with inputs := rest } =
      commandView (engineBody^[evs.count .engine] { s with inputs := [] }) :=
    (commandView_of_run h hi hreset (by omega) hv).trans
      (commandView_iterate_congr (s := { s with inputs := [] }) (t := s) rfl _)
  have hlast : stepsLeft (engineBody^[evs.count .engine] { s with inputs := [] }) = 1 := by
    have hleft := stepsLeft_iterate_engineBody hs (n := evs.count .engine) (hcount ▸ Nat.le_succ _)
    have hsame : stepsLeft { s with inputs := [] } = stepsLeft s := rfl
    omega
  have ht := completed_of_last_step hvinv ((stepsLeft_congr hview).trans hlast)
  have hu := completed_of_last_step hw hlast
  refine ⟨_, _, run_snoc hv ((step_engine hvi).trans (engineTurn_of_inv hvinv)), ?_,
    busy_eq_false_iff.2 ht.phase, ht.done, ht.err, inputs_of_effect (effect_engineBody hvinv),
    eq_of_commandView (readsOnly_engineBody.congr hview) (ht.done.trans hu.done.symm)⟩
  rw [← hcount, run_alone hs rfl, Function.iterate_succ_apply']

end Sys2Proof.Machine
